-- ==== Sys2Proof/Word.lean ====
section
/-! DEFINITION. The word and byte types of HS-CKFE (spec 10_state.md R23: every register is 32 bits). -/

namespace Sys2Proof

/-- A host-visible register or a command word: REG_WIDTH = 32 bits (R10, R23), bit 0 the least significant (R11). -/
abbrev Word := BitVec 32

/-- One byte lane of a word (R46). -/
abbrev Byte := BitVec 8

end Sys2Proof
end

