-- ==== Sys2Proof/Config.lean ====
section
/-! DEFINITION. The constants of R5 and R10 and the build parameters of R7 to R9 (spec 00_scope.md). -/

namespace Sys2Proof

/-! ## Constants the source fixes (R5) -/

abbrev portWidth : Nat := 8
abbrev dataWidth : Nat := 8
abbrev leadWidth : Nat := 1
abbrev leadValue : Nat := 1
/-- HDR_WIDTH, the width of the header: the leading bit, two addresses and the data. -/
abbrev hdrWidth : Nat := leadWidth + 2 * portWidth + dataWidth
/-- NOMINAL_CW = ceil((2 * PORT_WIDTH + DATA_WIDTH) / 4); it leaves the leading bit out (R6). -/
abbrev nominalCw : Nat := (2 * portWidth + dataWidth + 3) / 4
/-- Bits per second of the wire contract; the per-bit delay T is 1 / BAUD_RATE seconds (R106). -/
abbrev baudRate : Nat := 1200
/-- How often the serializer repeats one frame (R107). -/
abbrev idempRuns : Nat := 5
/-- The pause between two runs, counted in T (R108). -/
abbrev idempDelayFactor : Nat := 10

/-! ## Constants of the register realisation (R10) -/

abbrev regWidth : Nat := 32
abbrev ckInWidth : Nat := 32
/-- Bytes of host address space the block decodes (R10, R41). -/
abbrev windowSize : Nat := 0x100
abbrev frameMaxWidth : Nat := 34

/-! ## Build parameters -/

/-- CW_POLICY (R9): which checksum field ENCODE appends. Code 3 is no valid build, so it has no constructor (R9, D23). -/
inductive CwPolicy where
  | actual
  | nominal
  | natural
deriving DecidableEq, Repr

/-- RANGE_POLICY (R8): what ENCODE does with an operand that does not fit its field. -/
inductive RangePolicy where
  | reject
  | mask
deriving DecidableEq, Repr

/-- The build parameters of one block (R7 to R9), fixed while it runs. SRC_ADDR has 8 bits, so a build with
SRC_ADDR of 256 or more cannot be written (R7, D23). -/
structure Build where
  srcAddr     : BitVec 8
  cwPolicy    : CwPolicy
  rangePolicy : RangePolicy
deriving DecidableEq, Repr

/-- The default build: SRC_ADDR = 1 (R7), CW_POLICY = ACTUAL (R9), RANGE_POLICY = REJECT (R8). -/
def Build.default : Build := ⟨1, .actual, .reject⟩

end Sys2Proof
end

