-- ==== Sys2Proof/Machine/Bits.lean ====
section
/-! DEFINITION. The arithmetic primitives of 00_scope.md section 5, on unbounded naturals (R12). -/

namespace Sys2Proof.Machine

/-- bitlen(v), the number of bits needed to write v in binary; 0 for 0 (R13). -/
def bitlen (v : Nat) : Nat := if v = 0 then 0 else Nat.log2 v + 1

/-- 2^k - 1, the k-bit mask of all ones (R73). -/
def onesMask (k : Nat) : Nat := 2 ^ k - 1

end Sys2Proof.Machine
end

