-- ==== Sys2Proof/Machine/Transaction.lean ====
section
/-! DEFINITION. What the outside world does to the block: host transactions and responses (R42), the register map
(R20, R50), and the other events of the model (reset R129, the serializer's hand-over R104, what a model must refuse
R127 and R133). Types and the map only; what each event does is in Machine/Bus.lean and Machine/Wire.lean. -/

namespace Sys2Proof.Machine

/-- The thirteen host-visible registers (R20). -/
inductive Reg where
  | config | cmd | status | dest | data | ckIn | header | cksum | sum | ckInfo | frameLo | frameHi | frameWidth
deriving DecidableEq, Repr

/-- The byte offset of a register in the window (R20, R50). -/
def Reg.offset : Reg → BitVec 8
  | .config     => 0x00
  | .cmd        => 0x04
  | .status     => 0x08
  | .dest       => 0x0C
  | .data       => 0x10
  | .ckIn       => 0x14
  | .header     => 0x18
  | .cksum      => 0x1C
  | .sum        => 0x20
  | .ckInfo     => 0x24
  | .frameLo    => 0x28
  | .frameHi    => 0x2C
  | .frameWidth => 0x30

/-- Every register, in the order of the map. -/
def Reg.all : List Reg :=
  [.config, .cmd, .status, .dest, .data, .ckIn, .header, .cksum, .sum, .ckInfo, .frameLo, .frameHi, .frameWidth]

/-- The register at an offset of the window, if one starts there (R50). -/
def regAt (off : BitVec 8) : Option Reg :=
  Reg.all.find? fun r => r.offset == off

/-- The kind of a transaction; a WRITE carries its data (R42). -/
inductive Access where
  | read
  | write (wdata : Word)
deriving DecidableEq, Repr

/-- The sizes a transaction can have (R42). -/
inductive Size where
  | one | two | four
deriving DecidableEq, Repr

/-- The size in bytes. -/
def Size.bytes : Size → Nat
  | .one  => 1
  | .two  => 2
  | .four => 4

/-- A host transaction (kind, off, size, wdata) at a byte offset of the window (R42). -/
structure Transaction where
  kind : Access
  off  : BitVec 8
  size : Size
deriving DecidableEq, Repr

/-- The bus response (R42). -/
inductive Resp where
  | okay | error
deriving DecidableEq, Repr

/-- The block's answer to a transaction (R42): rdata is a value for a READ and for an ERROR (R43), none for an
accepted WRITE (DEDUCED, log entry 6). -/
structure Response where
  resp  : Resp
  rdata : Option Word
deriving DecidableEq, Repr

/-- One event of an emission (R109): a bit unit, or a wait counted in the per-bit delay T (R106, R108). -/
inductive WireEvent where
  | emit (b : Bool)
  | wait (units : Nat)
deriving DecidableEq, Repr

/-- Everything that can happen next. The list of them in State says which agent moves (R19). -/
inductive Event where
  /-- The host issues a transaction and gets its response (R42, R52). -/
  | transaction (t : Transaction)
  /-- The host issues an access at a system address; it reaches the block only inside its window (R41). -/
  | systemAccess (addr : Nat) (kind : Access) (size : Size)
  /-- Reset, between two transactions (R129). -/
  | reset
  /-- The host hands the frame registers to the serializer (R104). -/
  | handOver
  /-- The serializer performs the next event of its emission (R109). -/
  | wireTick
  /-- A second bus master reaches the window (R127): refused. -/
  | secondMaster (t : Transaction)
  /-- The host issues u before the response to t (R133): refused. -/
  | overlap (t u : Transaction)
deriving DecidableEq, Repr

end Sys2Proof.Machine
end

