-- ==== Sys2Proof/Syntax.lean ====
section
/-! DEFINITION. The commands of the block: one constructor per row of spec/opcode_table.json (R59). -/

namespace Sys2Proof

/-- A command. The word carries no operand (R58, R66): operands are the registers DEST, DATA and CK_IN. -/
inductive Instr where
  /-- Do nothing (R100). -/
  | nop
  /-- Run the checksum engine on CK_IN (R80). -/
  | cksum
  /-- Build a framed message from DEST and DATA (R89). -/
  | encode
deriving DecidableEq, Repr

end Sys2Proof
end

