-- ==== Sys2Proof/WellFormed.lean ====
section
/-! DEFINITION. What is well formed: a command and its word (R58 to R60), a transaction's write data (R42) and the
numbers a build is made from (R7 to R9, D23). -/

namespace Sys2Proof

/-- A command has no operand (R58, R66), so there is nothing in it to check: one line per constructor. -/
def Instr.wf : Instr → Bool
  | .nop    => true
  | .cksum  => true
  | .encode => true

/-- The legal command words: RSVD (bits 31:4) is 0 and OP (bits 3:0) names a row (R58, R60). -/
def legalCommandWord (w : Word) : Bool :=
  w.extractLsb' 4 28 == 0 && decide ((w.extractLsb' 0 4).toNat ≤ 2)

/-- wdata is a size-byte value (R42). -/
def Machine.Transaction.wf (t : Machine.Transaction) : Bool :=
  match t.kind with
  | .read    => true
  | .write v => decide (v.toNat < 2 ^ (8 * t.size.bytes))

/-- The numbers (SRC_ADDR, CW_POLICY code, RANGE_POLICY code) of a valid build (R7 to R9, D23; a policy code the spec
gives no meaning is none: DEDUCED, log entry 1). -/
def legalBuild (srcAddr cwCode rangeCode : Nat) : Bool :=
  decide (srcAddr < 2 ^ portWidth) && decide (cwCode ≤ 2) && decide (rangeCode ≤ 1)

end Sys2Proof
end

