-- ==== Sys2Proof/Decode.lean ====
section
/-! DEFINITION. The command word: its fields, the opcode map as rows of match and mask (R58, R59), the total decoder
that rejects by name (R60), byte lanes (R46), and the encoder written from the same map. -/

namespace Sys2Proof

/-- OP, bits 3:0 of a command word (R58). -/
def cmdOp (w : Word) : BitVec 4 := w.extractLsb' 0 4

/-- RSVD, bits 31:4 of a command word; it must be 0 (R58). -/
def cmdRsvd (w : Word) : BitVec 28 := w.extractLsb' 4 28

/-- One row of the opcode map (R59). -/
structure OpcodeRow where
  instr   : Instr
  pattern : Word
  mask    : Word
deriving DecidableEq, Repr

/-- The word lies in the row: its masked bits are the row's match. -/
def OpcodeRow.holds (r : OpcodeRow) (w : Word) : Bool := w &&& r.mask == r.pattern

/-- The opcode map of R59, row by row. -/
def opcodeRows : List OpcodeRow :=
  [⟨.nop,    0x00000000, 0xFFFFFFFF⟩,
   ⟨.cksum,  0x00000001, 0xFFFFFFFF⟩,
   ⟨.encode, 0x00000002, 0xFFFFFFFF⟩]

/-- Why a word is no command (R60). Every reason is ILLEGAL_COMMAND to the block (R101). -/
inductive DecodeReject where
  /-- RSVD is not 0, whatever OP is. -/
  | reservedBits (rsvd : BitVec 28)
  /-- RSVD is 0 and OP is one of 0x3 to 0xF. -/
  | reservedOp (op : BitVec 4)
  /-- Fewer than four byte lanes: no command word at all (a sub-word write is never decoded, R43). -/
  | truncated
deriving DecidableEq, Repr

/-- The reason a word that lies in no row is rejected for. -/
def rejectReason (w : Word) : DecodeReject :=
  if cmdRsvd w = 0 then .reservedOp (cmdOp w) else .reservedBits (cmdRsvd w)

/-- The decoder, total on every 32-bit word (R59). -/
def decode (w : Word) : Except DecodeReject Instr :=
  match opcodeRows.find? (·.holds w) with
  | some r => .ok r.instr
  | none   => .error (rejectReason w)

/-- A word from its byte lanes: lane i carries bits [8i+7 : 8i] (R46). -/
def wordOfLanes (b0 b1 b2 b3 : Byte) : Word := b3 ++ b2 ++ b1 ++ b0

/-- Byte lane i of a word (R46). -/
def laneOf (w : Word) (i : Nat) : Byte := w.extractLsb' (8 * i) 8

/-- The decoder on byte lanes, total on any list of bytes: the command and the bytes after its word. -/
def decodeBytes : List Byte → Except DecodeReject (Instr × List Byte)
  | b0 :: b1 :: b2 :: b3 :: rest =>
    match decode (wordOfLanes b0 b1 b2 b3) with
    | .ok i    => .ok (i, rest)
    | .error r => .error r
  | _ => .error .truncated

/-- The command word of a command (R59, the column match). -/
def encode : Instr → Word
  | .nop    => 0x00000000
  | .cksum  => 0x00000001
  | .encode => 0x00000002

/-- The command word as byte lanes, lane 0 first (R46). -/
def encodeBytes (i : Instr) : List Byte :=
  [laneOf (encode i) 0, laneOf (encode i) 1, laneOf (encode i) 2, laneOf (encode i) 3]

/-- The command word with the given low bits, the bits from nbits up being 0. -/
def tableWord (nbits w : Nat) : Word := BitVec.ofNat 32 (w % 2 ^ nbits)

/-- What the decoder reads from a table row's word: the word's four byte lanes, each as R46 carries it. A value
that needs more than 32 bits is no command word (R67). -/
def decodeTableWord (nbits w : Nat) : Option Instr :=
  if w % 2 ^ nbits < 2 ^ 32 then
    let v := tableWord nbits w
    match decodeBytes [laneOf v 0, laneOf v 1, laneOf v 2, laneOf v 3] with
    | .ok (i, _) => some i
    | .error _   => none
  else none

end Sys2Proof
end

