-- ==== Sys2Proof/Machine/State.lean ====
section
/-! DEFINITION. The state of the machine: the block's registers (R20), the build it was made with (R7 to R9), where its
window sits (R41), and the outside world as plain data (the host's pending events, the responses, the wire). -/

namespace Sys2Proof.Machine

/-- Everything the spec gives the machine. CONFIG is a view of `build` (R24) and CMD stores nothing (R25), so neither
has a field. -/
structure State where
  /-- The build parameters (R7 to R9). No step changes them (R130). -/
  build      : Build
  /-- BASE_ADDR, where the window sits in the system's address map (R41). No step changes it. -/
  baseAddr   : Nat
  /-- STATUS (R26). -/
  status     : Word
  /-- DEST (R27). -/
  dest       : Word
  /-- DATA (R28). -/
  data       : Word
  /-- CK_IN (R29). -/
  ckIn       : Word
  /-- HEADER (R30). -/
  header     : Word
  /-- CKSUM (R31). -/
  cksum      : Word
  /-- SUM (R32). -/
  sum        : Word
  /-- CKINFO (R33). -/
  ckInfo     : Word
  /-- FRAME_LO (R34). -/
  frameLo    : Word
  /-- FRAME_HI (R35). -/
  frameHi    : Word
  /-- FRAME_WIDTH (R36). -/
  frameWidth : Word
  /-- What the outside world does next, oldest first (R22 and R52: the host alone decides the order). -/
  pending    : List Event
  /-- The responses given so far, oldest first (R42, R70). -/
  responses  : List Response
  /-- What the emission in progress has still to emit; empty when none is in progress (R109). -/
  wireLeft   : List WireEvent
  /-- What has been emitted so far, oldest first (R109). -/
  wireDone   : List WireEvent
deriving DecidableEq, Repr

/-- Reasons the machine stops with a fault. There is none: a command error is recorded in STATUS and a refused access
in its response, and in both the machine goes on (R113, R119). -/
inductive Fault where
deriving DecidableEq, Repr

/-- What the model gives no meaning to. Each of these is safe: the model stops where it could otherwise say
something false of the hardware. -/
inductive Refusal where
  /-- A command whose meaning is not written yet; only an arm of exec may raise it, and none does. Safe. -/
  | notModelled (mnemonic : String)
  /-- A second bus master reaches the window: a model must refuse it (R127, I7). Raised by an event of that name. Safe. -/
  | secondMaster
  /-- Two transactions outstanding at once (R133, I8). Raised by an event overlap. Safe. -/
  | twoOutstanding
  /-- A hand-over while an emission is in progress (R112, I10). Raised by an event handOver. Safe. -/
  | emissionInProgress
  /-- A hand-over before any ENCODE has left a frame (R104; log entry 9). Raised by an event handOver. Safe. -/
  | noFrame
deriving DecidableEq, Repr

/-- What a step or a meaning answers. -/
abbrev Result := Host.Outcome State Fault Refusal

/-- A block of the given build right after reset (R129), its window at the given address and the outside world
with nothing done yet and nothing to do. -/
def State.resetOf (b : Build) (base : Nat) : State where
  build      := b
  baseAddr   := base
  status     := 0
  dest       := 0
  data       := 0
  ckIn       := 0
  header     := 0
  cksum      := 0
  sum        := 0
  ckInfo     := 0
  frameLo    := 0
  frameHi    := 0
  frameWidth := 0
  pending    := []
  responses  := []
  wireLeft   := []
  wireDone   := []

/-- The machine right after reset (R129), of the default build (R7 to R9). BASE_ADDR is open (R41): 0 is a DESIGN
CHOICE that no statement rests on (log entry 2). -/
def State.reset : State := State.resetOf Build.default 0

end Sys2Proof.Machine
end

