-- ==== Sys2Proof/Machine/Flags.lean ====
section
/-! DEFINITION. STATUS: its fields (R26), the error codes (R114), and the two records a command can leave in it
(R121, R122). STATUS.VALID and STATUS.ERR are the only flags (R39). -/

namespace Sys2Proof.Machine

/-- The errors a command can raise (R114). ACCESS_ERROR is not among them: it is a bus response (R119). -/
inductive ErrorCode where
  | rangeDest | rangeData | degenerate | illegalCommand
deriving DecidableEq, Repr

/-- The code of an error in STATUS.ERRCODE (R114). -/
def ErrorCode.code : ErrorCode → Word
  | .rangeDest      => 1
  | .rangeData      => 2
  | .degenerate     => 3
  | .illegalCommand => 4

/-- STATUS.VALID, bit 0 (R26). -/
def statusValid (v : Word) : Bool := v.getLsbD 0

/-- STATUS.ERR, bit 1 (R26). -/
def statusErr (v : Word) : Bool := v.getLsbD 1

/-- STATUS.ERRCODE, bits 7:4 (R26). -/
def statusErrcode (v : Word) : BitVec 4 := v.extractLsb' 4 4

/-- STATUS.LASTOP, bits 11:8 (R26). -/
def statusLastop (v : Word) : BitVec 4 := v.extractLsb' 8 4

/-- CMD[3:0] of the command with word w, moved to the place of LASTOP (R26). -/
def lastopField (w : Word) : Word := (w &&& 0xF) <<< 8

/-- The STATUS an error leaves: VALID = 0, ERR = 1, ERRCODE and LASTOP = w[3:0] (R121). -/
def errorRecord (w : Word) (c : ErrorCode) : Word := lastopField w ||| (c.code <<< 4) ||| (1 <<< 1)

/-- The STATUS a completed command leaves: VALID = 1, ERR = 0, ERRCODE = 0 and LASTOP = OP (R122). -/
def successRecord (w : Word) : Word := lastopField w ||| 1

end Sys2Proof.Machine
end

