-- ==== Sys2Proof/Machine/Ops.lean ====
section
/-! DEFINITION. The named operations over the registers: reading a register (R24 to R36), each way a register is
written, recording an error (the block's whole exception entry, R113 and R121) and a success (R122), reset (R129),
and elaborating a build (R7 to R9, D23). The block has no trap, so there is no return from one (R124). -/

namespace Sys2Proof.Machine

/-! ## The build -/

/-- The code of CW_POLICY in CONFIG (R24). -/
def cwCode : CwPolicy → BitVec 2
  | .actual  => 0
  | .nominal => 1
  | .natural => 2

/-- The code of RANGE_POLICY in CONFIG (R24). -/
def rangeCode : RangePolicy → BitVec 1
  | .reject => 0
  | .mask   => 1

/-- The value of CONFIG (R24): from bit 31 down, reserved, RANGE_POLICY, CW_POLICY, DATA_WIDTH, PORT_WIDTH, SRC_ADDR. -/
def configWord (b : Build) : Word :=
  (0 : BitVec 5) ++ rangeCode b.rangePolicy ++ cwCode b.cwPolicy
    ++ BitVec.ofNat 8 dataWidth ++ BitVec.ofNat 8 portWidth ++ b.srcAddr

/-- The policy with a given CW_POLICY code; code 3 has none (R9). -/
def cwPolicyOf : Nat → Option CwPolicy
  | 0 => some .actual
  | 1 => some .nominal
  | 2 => some .natural
  | _ => none

/-- The policy with a given RANGE_POLICY code (R8). -/
def rangePolicyOf : Nat → Option RangePolicy
  | 0 => some .reject
  | 1 => some .mask
  | _ => none

/-- Elaborating a build from its numbers: an invalid one is refused (R7, R9, D23), and so is a policy code the spec gives
no meaning (DEDUCED, log entry 1). -/
def elaborateBuild (srcAddr cw range : Nat) : Option Build :=
  if srcAddr < 2 ^ portWidth then
    match cwPolicyOf cw, rangePolicyOf range with
    | some c, some r => some ⟨BitVec.ofNat 8 srcAddr, c, r⟩
    | _, _           => none
  else none

/-! ## Reading a register -/

/-- The value a READ of the register returns (R44): CMD reads 0 (R25), CONFIG reads the build (R24). -/
def readReg (s : State) : Reg → Word
  | .config     => configWord s.build
  | .cmd        => 0
  | .status     => s.status
  | .dest       => s.dest
  | .data       => s.data
  | .ckIn       => s.ckIn
  | .header     => s.header
  | .cksum      => s.cksum
  | .sum        => s.sum
  | .ckInfo     => s.ckInfo
  | .frameLo    => s.frameLo
  | .frameHi    => s.frameHi
  | .frameWidth => s.frameWidth

/-- The frame the frame registers hold: (FRAME_HI << 32) | FRAME_LO (R104). -/
def frameValue (s : State) : Nat := (s.frameHi.toNat <<< 32) ||| s.frameLo.toNat

/-! ## Writing registers -/

def State.withStatus (s : State) (v : Word) : State := { s with status := v }
def State.withDest (s : State) (v : Word) : State := { s with dest := v }
def State.withData (s : State) (v : Word) : State := { s with data := v }
def State.withCkIn (s : State) (v : Word) : State := { s with ckIn := v }

/-- The registers CKSUM and ENCODE both write: CKSUM, SUM and CKINFO (R31 to R33). -/
def State.withChecksum (s : State) (ck sum l k cw : Nat) : State :=
  { s with
    cksum  := BitVec.ofNat 32 ck
    sum    := BitVec.ofNat 32 sum
    ckInfo := BitVec.ofNat 32 ((l <<< 16) ||| (k <<< 8) ||| cw) }

/-- The registers only ENCODE writes: HEADER, FRAME_LO, FRAME_HI and FRAME_WIDTH (R30, R34 to R36). -/
def State.withFrame (s : State) (h frame fw : Nat) : State :=
  { s with
    header     := BitVec.ofNat 32 h
    frameLo    := BitVec.ofNat 32 (frame % 2 ^ 32)
    frameHi    := BitVec.ofNat 32 (frame >>> 32)
    frameWidth := BitVec.ofNat 32 fw }

/-- raise Error(code) in the command with word w: STATUS is written and nothing else (R16, R113, R121). -/
def State.raiseError (s : State) (w : Word) (c : ErrorCode) : State := s.withStatus (errorRecord w c)

/-- The success record of the command with word w (R122). -/
def State.succeed (s : State) (w : Word) : State := s.withStatus (successRecord w)

/-- Reset of the block: every register takes its reset value; the build stays (R129, R130). -/
def State.blockReset (s : State) : State :=
  { s with
    status := 0, dest := 0, data := 0, ckIn := 0, header := 0, cksum := 0, sum := 0, ckInfo := 0
    frameLo := 0, frameHi := 0, frameWidth := 0 }

/-! ## The outside world -/

def State.withPending (s : State) (p : List Event) : State := { s with pending := p }

/-- The block's answer to the transaction just performed goes to the host (R42). -/
def State.withResponse (s : State) (r : Response) : State := { s with responses := s.responses ++ [r] }

/-- A new emission begins (R104, R109). -/
def State.withEmission (s : State) (l : List WireEvent) : State := { s with wireLeft := l }

/-- The serializer has performed e and has l still to do (R109). -/
def State.withEmitted (s : State) (e : WireEvent) (l : List WireEvent) : State :=
  { s with wireLeft := l, wireDone := s.wireDone ++ [e] }

end Sys2Proof.Machine
end

