-- ==== Sys2Proof/Machine/Operands.lean ====
section
/-! DEFINITION. Every operand form of a command: the sections of the engine's input (R65, R74), and the fields of
ENCODE from DEST and DATA under either RANGE_POLICY (R66, R85, R86). -/

namespace Sys2Proof.Machine

/-- s1, bits [k-1 : 0] (R65). -/
def section1 (h k : Nat) : Nat := h &&& onesMask k

/-- s2, bits [2k-1 : k] (R65). -/
def section2 (h k : Nat) : Nat := (h >>> k) &&& onesMask k

/-- s3, bits [3k-1 : 2k] (R65). -/
def section3 (h k : Nat) : Nat := (h >>> (2 * k)) &&& onesMask k

/-- s4, all remaining high bits, not masked (R65, R74). -/
def section4 (h k : Nat) : Nat := h >>> (3 * k)

/-- The operand of CKSUM: CK_IN as an unsigned number (R66). -/
def checksumOperand (s : State) : Nat := s.ckIn.toNat

/-- The fields of a header that come from the operands of ENCODE. -/
structure HeaderOperands where
  dst : Nat
  dat : Nat
deriving DecidableEq, Repr

/-- The operands under REJECT (R85): DEST is checked before DATA (R120). -/
def rejectedOperands (dRaw xRaw : Nat) : Except ErrorCode HeaderOperands :=
  if 2 ^ portWidth ≤ dRaw then .error .rangeDest
  else if 2 ^ dataWidth ≤ xRaw then .error .rangeData
  else .ok ⟨dRaw, xRaw⟩

/-- The operands under MASK (R86): no error. -/
def maskedOperands (dRaw xRaw : Nat) : HeaderOperands := ⟨dRaw % 2 ^ portWidth, xRaw % 2 ^ dataWidth⟩

/-- The operands of ENCODE as the build's RANGE_POLICY takes them (R66, R85, R86). -/
def encodeOperands (s : State) : Except ErrorCode HeaderOperands :=
  match s.build.rangePolicy with
  | .reject => rejectedOperands s.dest.toNat s.data.toNat
  | .mask   => .ok (maskedOperands s.dest.toNat s.data.toNat)

end Sys2Proof.Machine
end

