-- ==== Sys2Proof/Machine/Engine.lean ====
section
/-! DEFINITION. The checksum engine, one function used by both commands (R71 to R79). -/

namespace Sys2Proof.Machine

/-- What the engine computes (R71): the tuple (L, k, s1, s2, s3, s4, sum, ck, CW). -/
structure EngineResult where
  l   : Nat
  k   : Nat
  s1  : Nat
  s2  : Nat
  s3  : Nat
  s4  : Nat
  sum : Nat
  ck  : Nat
  cw  : Nat
deriving DecidableEq, Repr

/-- k = ceil(L / 4), the section width (R73). -/
def sectionWidth (l : Nat) : Nat := (l + 3) / 4

/-- CK(h) (R79), for h of 1 or more. At 0 the formulas give the zero-width tuple R78 mentions; no command applies
the engine to 0. -/
def engine (h : Nat) : EngineResult :=
  let l   := bitlen h
  let k   := sectionWidth l
  let s1  := section1 h k
  let s2  := section2 h k
  let s3  := section3 h k
  let s4  := section4 h k
  let sum := s1 + s2 + s3 + s4
  { l, k, s1, s2, s3, s4, sum
    ck := sum ^^^ onesMask k
    cw := max k (bitlen sum) }

/-- The registers that report an engine result (R80, R89). -/
def State.withEngine (s : State) (r : EngineResult) : State := s.withChecksum r.ck r.sum r.l r.k r.cw

end Sys2Proof.Machine
end

