-- ==== Sys2Proof/Machine/Checksum.lean ====
section
/-! DEFINITION. The checksum family: the meaning of CKSUM (R80). -/

namespace Sys2Proof.Machine

/-- CKSUM: the engine on CK_IN; DEGENERATE when CK_IN is 0 (R78, R80, R117). HEADER and the FRAME registers stay (D21). -/
def execCksum (s : State) : Result :=
  let h := checksumOperand s
  if h = 0 then .next (s.raiseError (encode .cksum) .degenerate)
  else .next ((s.withEngine (engine h)).succeed (encode .cksum))

end Sys2Proof.Machine
end

