-- ==== Sys2Proof/Machine/Control.lean ====
section
/-! DEFINITION. The control family: the meaning of NOP (R100) and what an illegal command word does (R101). -/

namespace Sys2Proof.Machine

/-- NOP: no register is written, STATUS included (R100, D20). -/
def execNop (s : State) : Result := .next s

/-- A command word that decodes to nothing: ILLEGAL_COMMAND with LASTOP = w[3:0]; no operand is read (R101, R118). -/
def illegalCommand (w : Word) (s : State) : Result := .next (s.raiseError w .illegalCommand)

end Sys2Proof.Machine
end

