-- ==== Sys2Proof/Machine/Frame.lean ====
section
/-! DEFINITION. The frame family: header packing (R61, R87), the checksum field by policy (R90 to R92), the frame (R63)
and the meaning of ENCODE (R89). -/

namespace Sys2Proof.Machine

/-- The header, most significant first: leading bit, source, destination, data (R61, R87). -/
def packHeader (src : BitVec 8) (o : HeaderOperands) : Nat :=
  (leadValue <<< (2 * portWidth + dataWidth)) ||| (src.toNat <<< (portWidth + dataWidth))
    ||| (o.dst <<< dataWidth) ||| o.dat

/-- The checksum field of a frame: its width FFW and its value cf (R63). -/
structure ChecksumField where
  ffw : Nat
  cf  : Nat
deriving DecidableEq, Repr

/-- The checksum field CW_POLICY chooses (R64, R90 to R92). -/
def checksumField (p : CwPolicy) (r : EngineResult) : ChecksumField :=
  match p with
  | .actual  => ⟨r.cw, r.ck⟩
  | .nominal => ⟨nominalCw, r.ck % 2 ^ nominalCw⟩
  | .natural => ⟨bitlen r.ck, r.ck⟩

/-- The framed message: the header, then the checksum field in the low bits (R63). -/
def packFrame (h : Nat) (f : ChecksumField) : Nat := (h <<< f.ffw) ||| f.cf

/-- FW, the width of the frame (R63). -/
def frameBits (f : ChecksumField) : Nat := hdrWidth + f.ffw

/-- A successful encode of a header (R88 to R93): every result register and the success record. -/
def State.withEncoding (s : State) (h : Nat) : State :=
  let r := engine h
  let f := checksumField s.build.cwPolicy r
  ((s.withEngine r).withFrame h (packFrame h f) (frameBits f)).succeed (encode .encode)

/-- ENCODE (R84, R89): operands, header, engine, checksum field, results; a range error writes STATUS only. -/
def execEncode (s : State) : Result :=
  match encodeOperands s with
  | .error c => .next (s.raiseError (encode .encode) c)
  | .ok o    => .next (s.withEncoding (packHeader s.build.srcAddr o))

end Sys2Proof.Machine
end

