-- ==== Sys2Proof/Machine/Dispatch.lean ====
section
/-! DEFINITION. One arm per command of the opcode map (R59, R99). -/

namespace Sys2Proof.Machine

def exec (i : Instr) (s : State) : Host.Outcome State Fault Refusal :=
  match i with
  | .nop => Sys2Proof.Machine.execNop s
  | .cksum => Sys2Proof.Machine.execCksum s
  | .encode => Sys2Proof.Machine.execEncode s

end Sys2Proof.Machine
end

