-- ==== Sys2Proof/Machine/Bus.lean ====
section
/-! DEFINITION. Host transactions: acceptance (R43), reads (R44), writes (R45), the command a CMD write performs (R99),
and the way from a system address to the window (R41). -/

namespace Sys2Proof.Machine

/-- The block accepts only an aligned 4-byte transaction at an offset up to 0x30 (R43). -/
def accept (off : BitVec 8) (size : Size) : Bool :=
  decide (size.bytes = 4) && decide (off.toNat % 4 = 0) && decide (off.toNat ≤ 0x30)

/-- The response to a transaction that is not accepted (R43, R119). -/
def accessError : Response := ⟨.error, some 0⟩

/-- The response to an accepted WRITE (R45). -/
def writeOkay : Response := ⟨.okay, none⟩

/-- The response to an accepted READ with the given value (R44). -/
def readOkay (v : Word) : Response := ⟨.okay, some v⟩

/-- The response to an accepted READ at an offset (R44). -/
def readResponse (s : State) (off : BitVec 8) : Response :=
  match regAt off with
  | some r => readOkay (readReg s r)
  | none   => accessError

/-- The command a CMD write of w performs, to completion (R99): decode, then the command or ILLEGAL_COMMAND (R101). -/
def performCommand (w : Word) (s : State) : Result :=
  match decode w with
  | .ok i    => exec i s
  | .error _ => illegalCommand w s

/-- What an accepted WRITE does to a register (R45): three store, CMD acts, the read-only ones ignore it. -/
def writeReg (v : Word) (s : State) : Reg → Result
  | .dest => .next (s.withDest v)
  | .data => .next (s.withData v)
  | .ckIn => .next (s.withCkIn v)
  | .cmd  => performCommand v s
  | .config | .status | .header | .cksum | .sum | .ckInfo | .frameLo | .frameHi | .frameWidth => .next s

/-- The response follows everything the transaction does (R52, R99). -/
def respond (r : Response) : Result → Result
  | .next s    => .next (s.withResponse r)
  | .fault f   => .fault f
  | .refused f => .refused f

/-- One host transaction (R42 to R45). -/
def performTransaction (t : Transaction) (s : State) : Result :=
  if accept t.off t.size then
    match t.kind with
    | .read    => .next (s.withResponse (readResponse s t.off))
    | .write v =>
      match regAt t.off with
      | some r => respond writeOkay (writeReg v s r)
      | none   => .next (s.withResponse accessError)
  else .next (s.withResponse accessError)

/-- The window offset of a system address; none outside [BASE_ADDR, BASE_ADDR + WINDOW_SIZE) (R41). -/
def windowOffset (base addr : Nat) : Option (BitVec 8) :=
  if base ≤ addr ∧ addr < base + windowSize then some (BitVec.ofNat 8 (addr - base)) else none

/-- An access on the system's address map: inside the window it is a transaction, outside it does not reach the
block, which gives no response (R41; log entry 4). -/
def performSystemAccess (addr : Nat) (kind : Access) (size : Size) (s : State) : Result :=
  match windowOffset s.baseAddr addr with
  | some off => performTransaction ⟨kind, off, size⟩ s
  | none     => .next s

end Sys2Proof.Machine
end

