-- ==== Sys2Proof/Machine/Wire.lean ====
section
/-! DEFINITION. The downstream wire contract (45_wire_contract.md R104 to R112): the event list of an emission, and the
serializer that performs it event by event. The serializer is outside the block; nothing here is a register's value. -/

namespace Sys2Proof.Machine

/-- One run: frame[n-1] down to frame[0], each bit followed by one wait of T (R105, R106). -/
def runEvents (frame : Nat) : Nat → List WireEvent
  | 0     => []
  | n + 1 => .emit (frame.testBit n) :: .wait 1 :: runEvents frame n

/-- The given number of runs, with one pause between two of them (R107, R108). -/
def emissionRuns (frame fw : Nat) : Nat → List WireEvent
  | 0     => []
  | 1     => runEvents frame fw
  | n + 2 => runEvents frame fw ++ .wait idempDelayFactor :: emissionRuns frame fw (n + 1)

/-- emission(frame, FW) (R109). -/
def emission (frame fw : Nat) : List WireEvent := emissionRuns frame fw idempRuns

/-- The bit an event puts on the wire, if any. -/
def WireEvent.bit : WireEvent → Option Bool
  | .emit b => some b
  | .wait _ => none

/-- How long an event lasts, in T: a wait its length, a bit unit nothing (R109). -/
def WireEvent.units : WireEvent → Nat
  | .emit _ => 0
  | .wait n => n

/-- How long a list of events lasts, in T (R110). -/
def durationT (l : List WireEvent) : Nat := (l.map WireEvent.units).sum

/-- How long a list of events lasts, in seconds: T = 1 / BAUD_RATE (R106). -/
def durationSeconds (l : List WireEvent) : Rat := (durationT l : Rat) / (baudRate : Rat)

/-- The host hands (frame, FW) to the serializer (R104). One emission at a time (I10); before any ENCODE there is no
frame to hand over, and FRAME_WIDTH is 0 (R131; log entry 9). -/
def performHandOver (s : State) : Result :=
  if s.wireLeft ≠ [] then .refused .emissionInProgress
  else if s.frameWidth = 0 then .refused .noFrame
  else .next (s.withEmission (emission (frameValue s) s.frameWidth.toNat))

/-- The serializer performs its next event; with none left it does nothing (R109, R111). -/
def performWireTick (s : State) : Result :=
  match s.wireLeft with
  | []     => .next s
  | e :: l => .next (s.withEmitted e l)

end Sys2Proof.Machine
end

