-- ==== Sys2Proof/Machine/Events.lean ====
section
/-! DEFINITION. What each event of the outside world does (R19, R129, and the refusals of R127 and R133). -/

namespace Sys2Proof.Machine

/-- One event, performed to completion before the next (R52). -/
def performEvent (e : Event) (s : State) : Result :=
  match e with
  | .transaction t               => performTransaction t s
  | .systemAccess addr kind size => performSystemAccess addr kind size s
  | .reset                       => .next s.blockReset
  | .handOver                    => performHandOver s
  | .wireTick                    => performWireTick s
  | .secondMaster _              => .refused .secondMaster
  | .overlap _ _                 => .refused .twoOutstanding

/-- The host's WRITE of w to CMD (R25). -/
def cmdWrite (w : Word) : Event := .transaction ⟨.write w, Reg.cmd.offset, .four⟩

end Sys2Proof.Machine
end

