-- ==== Sys2Proof/Machine/Step.lean ====
section
/-! DEFINITION. One step: the next event of the outside world, or nothing (R22, R52). -/

namespace Sys2Proof.Machine

/-- One step of the machine: the oldest pending event is taken off the list and performed. With nothing pending
nothing happens: the block's state persists (R128; DEDUCED, log entry 5). -/
def step (s : State) : Host.Outcome State Fault Refusal :=
  match s.pending with
  | []        => .next s
  | e :: rest => performEvent e (s.withPending rest)

/-- The state whose next step is the host's write of the given command word to CMD (log entry 3). -/
def State.withFetchWord (s : State) (nbits w : Nat) : State :=
  s.withPending (cmdWrite (tableWord nbits w) :: s.pending)

end Sys2Proof.Machine
end

