-- ==== Sys2Proof/Machine/HostProgram.lean ====
section
/-! DEFINITION. The host program syntax of R68, its pseudo-instructions (R69) and its listing (R70): a program line is
the transactions it stands for. -/

namespace Sys2Proof.Machine

/-- One line of a host program (R68, R69). -/
inductive HostLine where
  | wr (r : Reg) (v : Word)
  | rd (r : Reg)
  /-- `RD <reg> -> <value>`: a READ whose rdata the rules give. -/
  | rdIs (r : Reg) (v : Word)
  | wrb (off : BitVec 8) (size : Size) (v : Word)
  | rdb (off : BitVec 8) (size : Size)
  | nop
  | cksum
  | encode
  | cks (h : Word)
  | enc (d x : Word)
deriving DecidableEq, Repr

/-- WR: a 4-byte WRITE at the register's offset (R68). -/
def writeTo (r : Reg) (v : Word) : Transaction := ⟨.write v, r.offset, .four⟩

/-- RD: a 4-byte READ at the register's offset (R68). -/
def readOf (r : Reg) : Transaction := ⟨.read, r.offset, .four⟩

/-- The transactions of a line (R68, R69); the tuples are the program's encoding (R70). -/
def HostLine.expand : HostLine → List Transaction
  | .wr r v       => [writeTo r v]
  | .rd r         => [readOf r]
  | .rdIs r _     => [readOf r]
  | .wrb off n v  => [⟨.write v, off, n⟩]
  | .rdb off n    => [⟨.read, off, n⟩]
  | .nop          => [writeTo .cmd (Sys2Proof.encode .nop)]
  | .cksum        => [writeTo .cmd (Sys2Proof.encode .cksum)]
  | .encode       => [writeTo .cmd (Sys2Proof.encode .encode)]
  | .cks h        => [writeTo .ckIn h, writeTo .cmd (Sys2Proof.encode .cksum)]
  | .enc d x      => [writeTo .dest d, writeTo .data x, writeTo .cmd (Sys2Proof.encode .encode)]

/-- The rdata a line states, if it states one (R68). -/
def HostLine.expected : HostLine → Option Word
  | .rdIs _ v => some v
  | .wr _ _ | .rd _ | .wrb _ _ _ | .rdb _ _ | .nop | .cksum | .encode | .cks _ | .enc _ _ => none

/-- The listing of a program: its transactions, line by line (R70). -/
def listing (p : List HostLine) : List Transaction := p.flatMap HostLine.expand

/-- The program placed before the host as what it does next (log entry 3). -/
def State.withProgram (s : State) (p : List HostLine) : State :=
  s.withPending ((listing p).map Event.transaction)

/-- The end state of a program as R70 gives it: the value of every register, in the order of the map. -/
def endState (s : State) : List Word := Reg.all.map (readReg s)

end Sys2Proof.Machine
end

