-- ==== Sys2Proof/Safety.lean ====
section
/-! DEFINITION. The terms claims use: when ENCODE completes, which command an event writes, and the invariant of the
machine (what the registers and the wire can hold between two steps). -/

namespace Sys2Proof.Machine

/-- The operands ENCODE accepts: under REJECT both fit their fields (R85), under MASK any (R86). -/
def encodeRuns (s : State) : Prop :=
  s.build.rangePolicy = .mask ∨ (s.dest.toNat < 256 ∧ s.data.toNat < 256)

/-- The word an event writes to CMD, if it is an accepted write of CMD, by offset or by system address (R25, R41, R43). -/
def cmdWordOf (base : Nat) : Event → Option Word
  | .transaction ⟨.write w, off, .four⟩ => if off = Reg.cmd.offset then some w else none
  | .systemAccess addr (.write w) .four => if addr = base + 4 then some w else none
  | _ => none

/-- The values R39 lets STATUS have: after reset, after CKSUM or ENCODE, after DEGENERATE, RANGE_DEST or RANGE_DATA,
and after an illegal word with any LASTOP. -/
def statusLegal (v : Word) : Prop :=
  v = 0 ∨ v = 0x101 ∨ v = 0x201 ∨ v = 0x132 ∨ v = 0x212 ∨ v = 0x222
    ∨ ∃ op, op < 16 ∧ v = BitVec.ofNat 32 (op * 256 + 0x42)

/-- CKSUM, SUM and CKINFO report the engine on h. -/
def reportsEngine (s : State) (h : Nat) : Prop :=
  s.cksum = BitVec.ofNat 32 (engine h).ck ∧ s.sum = BitVec.ofNat 32 (engine h).sum ∧
  s.ckInfo = BitVec.ofNat 32 ((engine h).l * 2 ^ 16 + (engine h).k * 2 ^ 8 + (engine h).cw)

/-- HEADER, FRAME_LO, FRAME_HI and FRAME_WIDTH hold the encoding of these operands in this build. -/
def holdsFrame (s : State) (o : HeaderOperands) : Prop :=
  let h := packHeader s.build.srcAddr o
  let f := checksumField s.build.cwPolicy (engine h)
  s.header = BitVec.ofNat 32 h ∧ frameValue s = h * 2 ^ f.ffw + f.cf ∧ s.frameWidth.toNat = 25 + f.ffw

/-- The invariant of the machine: what holds between any two steps. -/
structure Inv (s : State) : Prop where
  /-- STATUS holds a value some rule writes (R39). -/
  status_legal : statusLegal s.status
  /-- The engine's registers are as reset left them, or report one engine run (R31 to R33). -/
  checksum_legal : (s.cksum = 0 ∧ s.sum = 0 ∧ s.ckInfo = 0) ∨ ∃ h, 1 ≤ h ∧ h < 2 ^ 32 ∧ reportsEngine s h
  /-- The frame registers are as reset left them, or hold one whole encoding (R30, R34 to R36). -/
  frame_legal : (s.header = 0 ∧ s.frameLo = 0 ∧ s.frameHi = 0 ∧ s.frameWidth = 0) ∨
    ∃ o : HeaderOperands, o.dst < 256 ∧ o.dat < 256 ∧ holdsFrame s o
  /-- After a CKSUM reported as the last command, CKINFO holds its result (R131, R132). -/
  cksum_reported : s.status = 0x101 → s.ckInfo ≠ 0
  /-- After an ENCODE reported as the last command, there is a frame, and the engine's registers are of its header. -/
  encode_reported : s.status = 0x201 → s.frameWidth ≠ 0 ∧ reportsEngine s s.header.toNat
  /-- An emission in progress is the rest of one whole emission of one frame; what it has emitted stands last on the
  wire (R107, R109, R111). -/
  wire_legal : s.wireLeft = [] ∨ ∃ frame fw sent, 25 ≤ fw ∧ fw ≤ 34 ∧ bitlen frame = fw ∧
    emission frame fw = sent ++ s.wireLeft ∧ sent <:+ s.wireDone

end Sys2Proof.Machine
end

