-- ==== Sys2Proof/Certificates/Slice0/Obligations.lean ====
section
/-! DEFINITION. The statements for the provers. Each docstring names the rule of spec/ it formalises; numbers stand as
the rules write them, not through the model's own helpers, wherever a rule gives them. -/

open Sys2Proof Sys2Proof.Machine

/-! ## Encoding -/

/-- The words of R59 and of the vectors V-CM-01 to V-CM-10, written out. -/
def Obligations.DecodeSpecWords : Prop :=
  decode 0x00000000#32 = .ok .nop ∧ decode 0x00000001#32 = .ok .cksum ∧ decode 0x00000002#32 = .ok .encode ∧
  decodeTableWord 32 0 = some .nop ∧ decodeTableWord 32 1 = some .cksum ∧ decodeTableWord 32 2 = some .encode ∧
  decode 0x00000003#32 = .error (.reservedOp 3) ∧ decode 0x0000000F#32 = .error (.reservedOp 15) ∧
  decode 0x00000010#32 = .error (.reservedBits 1) ∧ decode 0x00000011#32 = .error (.reservedBits 1) ∧
  decode 0x00000012#32 = .error (.reservedBits 1) ∧
  decode 0x80000002#32 = .error (.reservedBits 0x8000000) ∧ decode 0xFFFFFFFF#32 = .error (.reservedBits 0xFFFFFFF)

/-- R59: every word selects exactly one row, and the illegal rows are OP of 3 or more, or RSVD not 0. -/
def Obligations.EveryWordSelectsOneRow : Prop :=
  ∀ w : Word,
    (decode w = .ok .nop ↔ w = 0) ∧ (decode w = .ok .cksum ↔ w = 1) ∧ (decode w = .ok .encode ↔ w = 2) ∧
    ((∃ r, decode w = .error r) ↔ w ≠ 0 ∧ w ≠ 1 ∧ w ≠ 2) ∧
    ((∃ r, decode w = .error r) ↔ 3 ≤ w.toNat % 16 ∨ w.toNat / 16 ≠ 0)

/-- Decoding and encoding agree, on words, on byte lanes (any bytes may follow) and on table words. -/
def Obligations.DecodeEncodeAgree : Prop :=
  (∀ i : Instr, i.wf = true → decode (encode i) = .ok i) ∧
  (∀ (w : Word) (i : Instr), decode w = .ok i → w = encode i) ∧
  (∀ (i : Instr) (rest : List Byte), i.wf = true → decodeBytes (encodeBytes i ++ rest) = .ok (i, rest)) ∧
  (∀ (bs rest : List Byte) (i : Instr), decodeBytes bs = .ok (i, rest) → bs = encodeBytes i ++ rest) ∧
  (∀ n i, decodeTableWord 32 n = some i ↔ BitVec.ofNat 32 n = encode i)

/-! ## The machine's step -/

/-- A write of CMD whose word decodes runs exactly that command, and then gives the response OKAY (R99, R45). That the
response has no rdata is the model's reading (DEDUCED, log entry 6). -/
def Obligations.StepRunsDecodedCommand : Prop :=
  ∀ (s : State) (w : Word) (i : Instr) (rest : List Event),
    s.pending = .transaction ⟨.write w, 0x04, .four⟩ :: rest → decode w = .ok i →
      step s = match exec i { s with pending := rest } with
        | .next t    => .next { t with responses := t.responses ++ [⟨.okay, none⟩] }
        | .fault f   => .fault f
        | .refused r => .refused r

/-- With nothing pending a step changes nothing (the model's reading of R128, log entry 5). -/
def Obligations.IdleStepChangesNothing : Prop :=
  ∀ s : State, s.pending = [] → step s = .next s

/-! ## Commands -/

/-- R100: NOP writes no register, and a word with OP = 0 and RSVD not 0 is no NOP. -/
def Obligations.NopWritesNothing : Prop :=
  (∀ s : State, exec .nop s = .next s) ∧ decode 0#32 = .ok .nop ∧
  ∀ w : Word, w.toNat % 16 = 0 → w.toNat / 16 ≠ 0 → ∃ r, decode w = .error r

/-- R80, with R79's formulas written out: the result registers and STATUS, everything else unchanged; DEGENERATE at 0;
the rule's corner cases (the largest sum, a section 4 shorter than k) and its example. -/
def Obligations.CksumRunsEngineOnCkIn : Prop :=
  decode 1#32 = .ok .cksum ∧
  ∀ s : State,
    (s.ckIn.toNat = 0 → exec .cksum s = .next { s with status := 0x00000132 }) ∧
    (1 ≤ s.ckIn.toNat →
      let h := s.ckIn.toNat
      let l := bitlen h
      let k := (l + 3) / 4
      let mask := (1 <<< k) - 1
      let sum := (h &&& mask) + ((h >>> k) &&& mask) + ((h >>> (2 * k)) &&& mask) + (h >>> (3 * k))
      exec .cksum s = .next { s with
        cksum  := BitVec.ofNat 32 (sum ^^^ mask)
        sum    := BitVec.ofNat 32 sum
        ckInfo := BitVec.ofNat 32 ((l <<< 16) ||| (k <<< 8) ||| max k (bitlen sum))
        status := 0x00000101 } ∧
      sum ≤ 1020 ∧ (l % 4 ≠ 0 → bitlen (h >>> (3 * k)) < k)) ∧
    (s.ckIn = 1 → exec .cksum s =
      .next { s with cksum := 0, sum := 1, ckInfo := 0x00010101, status := 0x00000101 }) ∧
    (s.ckIn = 0xFFFFFFFF → exec .cksum s =
      .next { s with cksum := 771, sum := 1020, ckInfo := 0x0020080A, status := 0x00000101 }) ∧
    (s.ckIn = 0x80000000 → exec .cksum s =
      .next { s with cksum := 127, sum := 128, ckInfo := 0x00200808, status := 0x00000101 }) ∧
    (s.ckIn = 0x01010503 → exec .cksum s =
      .next { s with cksum := 102, sum := 25, ckInfo := 0x00190707, status := 0x00000101 }) ∧
    (engine 1).sum = 1 ∧ (engine 1).cw = 1 ∧
    engine 0xFFFFFFFF = ⟨32, 8, 255, 255, 255, 255, 1020, 771, 10⟩ ∧
    engine 0x80000000 = ⟨32, 8, 0, 0, 0, 128, 128, 127, 8⟩ ∧ bitlen 127 = 7

/-- R89, with the pseudocode written out: the errors of REJECT, the two operand forms, the three checksum fields, the
eight registers written, everything else unchanged; the rule's corner cases and its example. -/
def Obligations.EncodeBuildsFrame : Prop :=
  decode 2#32 = .ok .encode ∧
  ∀ s : State,
    (s.build.rangePolicy = .reject → 256 ≤ s.dest.toNat →
      exec .encode s = .next { s with status := 0x00000212 }) ∧
    (s.build.rangePolicy = .reject → s.dest.toNat < 256 → 256 ≤ s.data.toNat →
      exec .encode s = .next { s with status := 0x00000222 }) ∧
    (∀ dst dat : Nat,
      ((s.build.rangePolicy = .reject ∧ s.dest.toNat < 256 ∧ s.data.toNat < 256 ∧
          dst = s.dest.toNat ∧ dat = s.data.toNat) ∨
        (s.build.rangePolicy = .mask ∧ dst = s.dest.toNat % 256 ∧ dat = s.data.toNat % 256)) →
      let h := (1 <<< 24) ||| (s.build.srcAddr.toNat <<< 16) ||| (dst <<< 8) ||| dat
      let l := bitlen h
      let k := (l + 3) / 4
      let mask := (1 <<< k) - 1
      let sum := (h &&& mask) + ((h >>> k) &&& mask) + ((h >>> (2 * k)) &&& mask) + (h >>> (3 * k))
      let ck := sum ^^^ mask
      let cw := max k (bitlen sum)
      let ffw := match s.build.cwPolicy with | .actual => cw | .nominal => 6 | .natural => bitlen ck
      let cf := match s.build.cwPolicy with | .actual => ck | .nominal => ck % 64 | .natural => ck
      let frame := (h <<< ffw) ||| cf
      exec .encode s = .next { s with
        header     := BitVec.ofNat 32 h
        cksum      := BitVec.ofNat 32 ck
        sum        := BitVec.ofNat 32 sum
        ckInfo     := BitVec.ofNat 32 ((l <<< 16) ||| (k <<< 8) ||| cw)
        frameLo    := BitVec.ofNat 32 (frame % 2 ^ 32)
        frameHi    := BitVec.ofNat 32 (frame >>> 32)
        frameWidth := BitVec.ofNat 32 (25 + ffw)
        status     := 0x00000201 } ∧ 7 ≤ cw) ∧
    (s.build.srcAddr = 1 → s.build.cwPolicy = .actual → s.dest = 5 → s.data = 3 →
      exec .encode s = .next { s with
        header := 0x01010503, cksum := 0x66, sum := 25, ckInfo := 0x00190707
        frameLo := 0x808281E6, frameHi := 0, frameWidth := 32, status := 0x00000201 }) ∧
    (s.build.srcAddr = 1 → s.dest = 0 → s.data = 0 →
      ∃ t, exec .encode s = .next t ∧ t.header = 0x01010000 ∧ t.sum = 12 ∧ t.cksum = 115 ∧ t.ckInfo = 0x00190707) ∧
    (s.build.srcAddr = 1 → s.build.cwPolicy = .actual → s.dest = 255 → s.data = 255 →
      ∃ t, exec .encode s = .next t ∧ t.sum = 269 ∧ t.ckInfo = 0x00190709 ∧ t.frameWidth = 34 ∧ t.frameHi ≠ 0) ∧
    (s.build.srcAddr = 1 → s.build.cwPolicy = .natural → s.dest = 0 → s.data = 115 →
      ∃ t, exec .encode s = .next t ∧ t.sum = 127 ∧ t.cksum = 0 ∧ t.frameWidth = 25 ∧ frameValue t = t.header.toNat)

/-- R115 and R116: under REJECT an operand of 256 or more is a range error, DEST first; in range there is none. -/
def Obligations.EncodeRangeErrors : Prop :=
  ∀ s : State, s.build.rangePolicy = .reject →
    ∃ t, exec .encode s = .next t ∧
      (256 ≤ s.dest.toNat → statusErr t.status = true ∧ statusErrcode t.status = 1) ∧
      (s.dest.toNat < 256 → 256 ≤ s.data.toNat → statusErr t.status = true ∧ statusErrcode t.status = 2) ∧
      (s.dest.toNat < 256 → s.data.toNat < 256 → statusErr t.status = false ∧ statusErrcode t.status = 0)

/-- R86: under MASK, ENCODE does what it does to the operands reduced modulo 256, and DEST and DATA keep their values. -/
def Obligations.MaskedEncodeUsesLowBytes : Prop :=
  ∀ s : State, s.build.rangePolicy = .mask →
    ∃ t t', exec .encode s = .next t ∧
      exec .encode { s with dest := s.dest &&& 0xFF, data := s.data &&& 0xFF } = .next t' ∧
      t = { t' with dest := s.dest, data := s.data } ∧ t.status = 0x00000201 ∧
      t.header.toNat = 2 ^ 24 + s.build.srcAddr.toNat * 2 ^ 16 + s.dest.toNat % 256 * 2 ^ 8 + s.data.toNat % 256

/-- R117: CKSUM raises DEGENERATE when CK_IN is 0, and ENCODE never raises it. -/
def Obligations.DegenerateOnlyFromCksumOfZero : Prop :=
  (∀ s : State, s.ckIn = 0 →
    ∃ t, exec .cksum s = .next t ∧ statusErr t.status = true ∧ statusErrcode t.status = 3) ∧
  (∀ s : State, s.ckIn ≠ 0 →
    ∃ t, exec .cksum s = .next t ∧ statusErr t.status = false ∧ statusErrcode t.status = 0) ∧
  (∀ s : State, ∃ t, exec .encode s = .next t ∧ statusErrcode t.status ≠ 3)

/-- The frame of the three commands: a register the table does not list under a command's writes reads as before, the
frame registers among them for CKSUM (D21); the build and the outside world stay. -/
def Obligations.CommandsWriteOnlyTheirRegisters : Prop :=
  ∀ (i : Instr) (s t : State), exec i s = .next t →
    (∀ r : Reg, r ∉ (match i with
        | .nop    => ([] : List Reg)
        | .cksum  => [.cksum, .sum, .ckInfo, .status]
        | .encode => [.header, .cksum, .sum, .ckInfo, .frameLo, .frameHi, .frameWidth, .status]) →
      readReg t r = readReg s r) ∧
    t.build = s.build ∧ t.baseAddr = s.baseAddr ∧ t.pending = s.pending ∧ t.responses = s.responses ∧
    t.wireLeft = s.wireLeft ∧ t.wireDone = s.wireDone

/-- A command is a function of its operands: run twice in a row, it leaves the registers as the first run did (R49). -/
def Obligations.RepeatedCommandChangesNothing : Prop :=
  ∀ (i : Instr) (s : State), ∃ t, exec i s = .next t ∧ exec i t = .next t

/-- R94: for one build, what ENCODE writes is a function of DEST and DATA alone. -/
def Obligations.EncodeDependsOnOperandsAlone : Prop :=
  ∀ s s' : State, s.build = s'.build → s.dest = s'.dest → s.data = s'.data →
    ∃ t t', exec .encode s = .next t ∧ exec .encode s' = .next t' ∧ t.status = t'.status ∧
      (encodeRuns s → t.header = t'.header ∧ t.cksum = t'.cksum ∧ t.sum = t'.sum ∧ t.ckInfo = t'.ckInfo ∧
        t.frameLo = t'.frameLo ∧ t.frameHi = t'.frameHi ∧ t.frameWidth = t'.frameWidth)

/-- What a completed command leaves apart from the reset value 0 (R131). R131 also says SUM and FRAME_LO can be 0
after a command; by R72 to R77 and R89 they cannot, and this states so (log entry 15). -/
def Obligations.ResultsDifferFromReset : Prop :=
  (∀ s : State, s.ckIn ≠ 0 → ∃ t, exec .cksum s = .next t ∧ t.ckInfo ≠ 0 ∧ t.sum ≠ 0) ∧
  (∀ s : State, encodeRuns s → ∃ t, exec .encode s = .next t ∧ t.ckInfo ≠ 0 ∧ t.sum ≠ 0 ∧
    2 ^ 24 ≤ t.header.toNat ∧ 25 ≤ t.frameWidth.toNat ∧ t.frameLo ≠ 0) ∧
  (∃ s t, exec .cksum s = .next t ∧ statusValid t.status = true ∧ t.cksum = 0) ∧
  (∃ s t, exec .encode s = .next t ∧ statusValid t.status = true ∧ t.cksum = 0 ∧ t.frameHi = 0)

/-- No register of an earlier command enters CKSUM's result (R2, R71): it is a function of CK_IN. -/
def Obligations.CksumDependsOnCkInAlone : Prop :=
  ∀ s s' : State, s.ckIn = s'.ckIn →
    ∃ t t', exec .cksum s = .next t ∧ exec .cksum s' = .next t' ∧ t.status = t'.status ∧
      (s.ckIn ≠ 0 → t.cksum = t'.cksum ∧ t.sum = t'.sum ∧ t.ckInfo = t'.ckInfo)

/-! ## The engine -/

/-- R13: bitlen(v) is the least n with v < 2^n; 0 for 0, floor(log2 v) + 1 otherwise. -/
def Obligations.BitlenIsLeastWidth : Prop :=
  ∀ v : Nat, v < 2 ^ bitlen v ∧ (∀ n, v < 2 ^ n → bitlen v ≤ n) ∧ (v = 0 → bitlen v = 0) ∧
    (1 ≤ v → bitlen v = Nat.log 2 v + 1)

/-- R65: the four sections are the bit ranges of the table, zero-extended, and together they are all of h. -/
def Obligations.SectionsAreBitRanges : Prop :=
  ∀ h : Nat,
    let l := bitlen h
    let k := (l + 3) / 4
    (engine h).l = l ∧ (engine h).k = k ∧
    (engine h).s1 = h &&& (2 ^ k - 1) ∧ (engine h).s2 = (h >>> k) &&& (2 ^ k - 1) ∧
    (engine h).s3 = (h >>> (2 * k)) &&& (2 ^ k - 1) ∧ (engine h).s4 = h >>> (3 * k) ∧
    (∀ i, (engine h).s1.testBit i = (decide (i < k) && h.testBit i)) ∧
    (∀ i, (engine h).s2.testBit i = (decide (i < k) && h.testBit (k + i))) ∧
    (∀ i, (engine h).s3.testBit i = (decide (i < k) && h.testBit (2 * k + i))) ∧
    (∀ i, (engine h).s4.testBit i = h.testBit (3 * k + i)) ∧ (l ≤ 3 * k → (engine h).s4 = 0) ∧
    h = (engine h).s1 + (engine h).s2 * 2 ^ k + (engine h).s3 * 2 ^ (2 * k) + (engine h).s4 * 2 ^ (3 * k)

/-- R76: the low k bits of the sum are complemented, the carries above them are kept. -/
def Obligations.ChecksumComplementsLowBitsOnly : Prop :=
  ∀ h : Nat, 1 ≤ h →
    let r := engine h
    r.ck = r.sum ^^^ (2 ^ r.k - 1) ∧ (∀ i, i < r.k → r.ck.testBit i = !r.sum.testBit i) ∧
    r.ck >>> r.k = r.sum >>> r.k

/-- R77: the output width is max(k, bitlen(sum)); the checksum fits it, may be shorter, and ACTUAL shifts by it. -/
def Obligations.OutputWidthCoversChecksum : Prop :=
  ∀ h : Nat, 1 ≤ h →
    let r := engine h
    r.cw = max r.k (bitlen r.sum) ∧ bitlen r.ck ≤ r.cw ∧ (r.ck < 2 ^ (r.cw - 1) → bitlen r.ck < r.cw) ∧
    packFrame h (checksumField .actual r) = (h <<< r.cw) ||| r.ck

/-- R81, (a) to (d). -/
def Obligations.EngineBounds : Prop :=
  ∀ h : Nat, 1 ≤ h →
    let r := engine h
    (r.l ≤ 4 * r.k ∧ r.s4 < 2 ^ (r.l - 3 * r.k) ∧ 2 ^ (r.l - 3 * r.k) ≤ 2 ^ r.k ∧
      r.s1 < 2 ^ r.k ∧ r.s2 < 2 ^ r.k ∧ r.s3 < 2 ^ r.k ∧ r.s4 < 2 ^ r.k) ∧
    (r.sum ≤ 4 * (2 ^ r.k - 1) ∧ 4 * (2 ^ r.k - 1) < 2 ^ (r.k + 2) ∧ r.k ≤ r.cw ∧ r.cw ≤ r.k + 2) ∧
    r.ck < 2 ^ r.cw ∧
    (h < 2 ^ 32 → r.k ≤ 8 ∧ r.sum ≤ 1020 ∧ r.cw ≤ 10 ∧ r.ck < 1024)

/-- R82: k and the checksum together fix the sum; the map is a bijection; for one k, equal checksums are equal sums,
and a change that keeps k and the sum (two sections swapped) is not detected. -/
def Obligations.SumIsRecoverable : Prop :=
  (∀ h : Nat, (engine h).sum = (engine h).ck ^^^ (2 ^ (engine h).k - 1)) ∧
  (∀ k : Nat, Function.Bijective fun n : Nat => n ^^^ (2 ^ k - 1)) ∧
  (∀ h h' : Nat, (engine h).k = (engine h').k →
    ((engine h).ck = (engine h').ck ↔ (engine h).sum = (engine h').sum)) ∧
  (∀ h h' : Nat, (engine h).k = (engine h').k → (engine h).s1 = (engine h').s2 →
    (engine h).s2 = (engine h').s1 → (engine h).s3 = (engine h').s3 → (engine h).s4 = (engine h').s4 →
    (engine h).ck = (engine h').ck)

/-- The registers hold the engine's whole result: no bit of ck, sum, L, k or CW is lost in them, and their reserved
bits are 0 (R31 to R33). -/
def Obligations.CksumRegistersLoseNoBit : Prop :=
  ∀ s : State, 1 ≤ s.ckIn.toNat →
    ∃ t, exec .cksum s = .next t ∧
      t.cksum.toNat = (engine s.ckIn.toNat).ck ∧ t.cksum.toNat < 2 ^ 10 ∧
      t.sum.toNat = (engine s.ckIn.toNat).sum ∧ t.sum.toNat ≤ 1020 ∧
      (t.ckInfo.extractLsb' 0 8).toNat = (engine s.ckIn.toNat).cw ∧
      (t.ckInfo.extractLsb' 8 8).toNat = (engine s.ckIn.toNat).k ∧
      (t.ckInfo.extractLsb' 16 8).toNat = (engine s.ckIn.toNat).l ∧ t.ckInfo.extractLsb' 24 8 = 0 ∧
      1 ≤ (engine s.ckIn.toNat).cw ∧ (engine s.ckIn.toNat).cw ≤ 10 ∧
      1 ≤ (engine s.ckIn.toNat).k ∧ (engine s.ckIn.toNat).k ≤ 8 ∧
      1 ≤ (engine s.ckIn.toNat).l ∧ (engine s.ckIn.toNat).l ≤ 32

/-! ## Header and frame -/

/-- R61 and R62: the header's number, its range and bit length, its fields, and the source's own example. -/
def Obligations.HeaderLayout : Prop :=
  (∀ (src : BitVec 8) (dst dat : Nat), dst < 256 → dat < 256 →
    let h := packHeader src ⟨dst, dat⟩
    h = (1 <<< 24) ||| (src.toNat <<< 16) ||| (dst <<< 8) ||| dat ∧
    h = 2 ^ 24 + src.toNat * 2 ^ 16 + dst * 2 ^ 8 + dat ∧ 2 ^ 24 ≤ h ∧ h < 2 ^ 25 ∧ bitlen h = 25 ∧
    h >>> 24 = 1 ∧ (h >>> 16) % 256 = src.toNat ∧ (h >>> 8) % 256 = dst ∧ h % 256 = dat) ∧
  packHeader 1 ⟨5, 3⟩ = 16844035

/-- R63: the frame's fields under every policy: leading bit, source, destination, data and checksum field. -/
def Obligations.FrameLayout : Prop :=
  ∀ (b : Build) (dst dat : Nat), dst < 256 → dat < 256 →
    let h := packHeader b.srcAddr ⟨dst, dat⟩
    let f := checksumField b.cwPolicy (engine h)
    let frame := packFrame h f
    let fw := frameBits f
    fw = 25 + f.ffw ∧ frame = (h <<< f.ffw) ||| f.cf ∧ f.cf < 2 ^ f.ffw ∧ frame = h * 2 ^ f.ffw + f.cf ∧
    frame >>> (fw - 1) = 1 ∧ (frame >>> (fw - 9)) % 256 = b.srcAddr.toNat ∧
    (frame >>> (fw - 17)) % 256 = dst ∧ (frame >>> f.ffw) % 256 = dat ∧ frame % 2 ^ f.ffw = f.cf ∧
    (f.ffw = 0 → frame = h)

/-- R96, (a) to (f), for every header. -/
def Obligations.EncodeRanges : Prop :=
  ∀ (b : Build) (dst dat : Nat), dst < 256 → dat < 256 →
    let h := packHeader b.srcAddr ⟨dst, dat⟩
    let r := engine h
    let f := checksumField b.cwPolicy r
    (2 ^ 24 ≤ h ∧ h < 2 ^ 25 ∧ r.l = 25 ∧ r.k = 7 ∧ onesMask r.k = 0x7F) ∧
    (r.s4 = h >>> 21 ∧ h >>> 21 = 8 + (b.srcAddr.toNat >>> 5) ∧ 8 ≤ r.s4 ∧ r.s4 ≤ 15) ∧
    (8 ≤ r.sum ∧ r.sum ≤ 396 ∧ (b.srcAddr = 1 → 12 ≤ r.sum ∧ r.sum ≤ 269)) ∧
    (r.cw = 7 ∨ r.cw = 8 ∨ r.cw = 9) ∧
    (match b.cwPolicy with
      | .actual  => 32 ≤ frameBits f ∧ frameBits f ≤ 34
      | .nominal => frameBits f = 31
      | .natural => 25 ≤ frameBits f ∧ frameBits f ≤ 34) ∧
    (packFrame h f < 2 ^ 34 ∧ packFrame h f >>> 32 ≤ 3)

/-- R95 and R97: after every successful ENCODE the frame registers hold the whole frame, its top 25 bits are the
header, and its bit length is FRAME_WIDTH. -/
def Obligations.FrameReproducesHeader : Prop :=
  ∀ s : State, encodeRuns s →
    ∃ t, exec .encode s = .next t ∧
      frameValue t >>> (t.frameWidth.toNat - 25) = t.header.toNat ∧
      t.header.toNat = packHeader s.build.srcAddr ⟨s.dest.toNat % 256, s.data.toNat % 256⟩ ∧
      bitlen (frameValue t) = t.frameWidth.toNat ∧ (frameValue t).testBit (t.frameWidth.toNat - 1) = true

/-- R91: under NOMINAL the field is the low 6 bits of ck, FRAME_WIDTH is 31, and CW is always above 6. -/
def Obligations.NominalFrameIs31Bits : Prop :=
  ∀ s : State, s.build.cwPolicy = .nominal → encodeRuns s →
    ∃ t, exec .encode s = .next t ∧ t.frameWidth = 31 ∧ t.frameHi = 0 ∧
      frameValue t % 2 ^ 6 = t.cksum.toNat % 2 ^ 6 ∧ frameValue t >>> 6 = t.header.toNat ∧
      t.frameLo.extractLsb' 0 6 = t.cksum.extractLsb' 0 6 ∧ 7 ≤ (engine t.header.toNat).cw

/-- R92: under NATURAL the field is ck at its own bit length, 0 to 9 bits; both ends occur. -/
def Obligations.NaturalFrameWidths : Prop :=
  (∀ s : State, s.build.cwPolicy = .natural → encodeRuns s →
    ∃ t, exec .encode s = .next t ∧ t.frameWidth.toNat = 25 + bitlen t.cksum.toNat ∧
      bitlen t.cksum.toNat ≤ 9 ∧ 25 ≤ t.frameWidth.toNat ∧ t.frameWidth.toNat ≤ 34 ∧
      frameValue t % 2 ^ bitlen t.cksum.toNat = t.cksum.toNat ∧
      frameValue t >>> bitlen t.cksum.toNat = t.header.toNat) ∧
  (∃ s t, s.build.cwPolicy = .natural ∧ encodeRuns s ∧ exec .encode s = .next t ∧ t.frameWidth = 25) ∧
  (∃ s t, s.build.cwPolicy = .natural ∧ encodeRuns s ∧ exec .encode s = .next t ∧ t.frameWidth = 34)

/-- R98: two builds that differ only in SRC_ADDR, with the same in-range operands. (i) The frames differ. (ii) Under
NOMINAL destination and data stand right above bit 5 in both. (iii) Under every policy they stand right above the checksum
field, as the low 16 bits of the header, and each frame has its header where the other has its own exactly when the
widths agree; the rule's example of widths that differ. (iv) Its example of a checksum that does not change. -/
def Obligations.SourceAddressMutation : Prop :=
  (∀ s s' : State, s.build.srcAddr ≠ s'.build.srcAddr → s.build.cwPolicy = s'.build.cwPolicy →
    s.build.rangePolicy = s'.build.rangePolicy → s.dest = s'.dest → s.data = s'.data →
    s.dest.toNat < 256 → s.data.toNat < 256 →
    ∃ t t', exec .encode s = .next t ∧ exec .encode s' = .next t' ∧ frameValue t ≠ frameValue t' ∧
      (s.build.cwPolicy = .nominal → t.frameWidth = t'.frameWidth ∧
        (frameValue t >>> 6) % 2 ^ 16 = s.dest.toNat * 256 + s.data.toNat ∧
        (frameValue t' >>> 6) % 2 ^ 16 = s.dest.toNat * 256 + s.data.toNat) ∧
      (frameValue t >>> (t.frameWidth.toNat - 25)) % 2 ^ 16 = s.dest.toNat * 256 + s.data.toNat ∧
      (frameValue t' >>> (t'.frameWidth.toNat - 25)) % 2 ^ 16 = s.dest.toNat * 256 + s.data.toNat ∧
      (frameValue t' >>> (t.frameWidth.toNat - 25) = t'.header.toNat ↔ t.frameWidth = t'.frameWidth) ∧
      (frameValue t >>> (t'.frameWidth.toNat - 25) = t.header.toNat ↔ t.frameWidth = t'.frameWidth)) ∧
  (frameBits (checksumField .actual (engine (packHeader 1 ⟨0, 0⟩))) = 32 ∧
    frameBits (checksumField .actual (engine (packHeader 255 ⟨0, 0⟩))) = 33) ∧
  (engine (packHeader 1 ⟨5, 3⟩)).sum = 25 ∧ (engine (packHeader 128 ⟨5, 3⟩)).sum = 25 ∧
  (engine (packHeader 1 ⟨5, 3⟩)).ck = 102 ∧ (engine (packHeader 128 ⟨5, 3⟩)).ck = 102

/-! ## Errors and STATUS -/

/-- An illegal word leaves ERR, code 4 and LASTOP = w[3:0] in STATUS and changes no other register (R101); the response
is OKAY (R45). That the response has no rdata is the model's reading (DEDUCED, log entry 6). -/
def Obligations.IllegalWordIsRecorded : Prop :=
  ∀ (s : State) (w : Word) (rest : List Event), w ≠ 0 → w ≠ 1 → w ≠ 2 →
    s.pending = .transaction ⟨.write w, 0x04, .four⟩ :: rest →
    ∃ v : Word, step s = .next { s with
        pending := rest, status := v, responses := s.responses ++ [⟨.okay, none⟩] } ∧
      v = BitVec.ofNat 32 (w.toNat % 16 * 256 + 4 * 16 + 2) ∧
      statusValid v = false ∧ statusErr v = true ∧ statusErrcode v = 4 ∧ statusLastop v = w.extractLsb' 0 4 ∧
      (w = 0x12 → statusLastop v = 2) ∧ (w = 0xFFFFFFFF → statusLastop v = 0xF) ∧ (w = 3 → v = 0x00000342)

/-- R120: which error a command reports, checked in the rule's order, and that a refused access comes before all. -/
def Obligations.ErrorPriority : Prop :=
  (∀ (s : State) (w : Word) (rest : List Event),
    s.pending = .transaction ⟨.write w, 0x04, .four⟩ :: rest →
    ∃ t, step s = .next t ∧
      ((w ≠ 0 ∧ w ≠ 1 ∧ w ≠ 2) → statusErr t.status = true ∧ statusErrcode t.status = 4) ∧
      (w = 2 → s.build.rangePolicy = .reject → 256 ≤ s.dest.toNat →
        statusErr t.status = true ∧ statusErrcode t.status = 1) ∧
      (w = 2 → s.build.rangePolicy = .reject → s.dest.toNat < 256 → 256 ≤ s.data.toNat →
        statusErr t.status = true ∧ statusErrcode t.status = 2) ∧
      (w = 1 → s.ckIn = 0 → statusErr t.status = true ∧ statusErrcode t.status = 3) ∧
      (w = 2 → encodeRuns s → statusErr t.status = false ∧ statusErrcode t.status = 0) ∧
      (w = 1 → s.ckIn ≠ 0 → statusErr t.status = false ∧ statusErrcode t.status = 0) ∧
      (w = 0 → t.status = s.status)) ∧
  (∀ (s : State) (w : Word) (size : Size) (rest : List Event), size ≠ .four →
    s.pending = .transaction ⟨.write w, 0x04, size⟩ :: rest →
    step s = .next { s with pending := rest, responses := s.responses ++ [⟨.error, some 0⟩] })

/-- A command that raises an error writes STATUS, as the record of its word and code, and no other register (R121); the
response is OKAY (R45). That the response has no rdata is the model's reading (DEDUCED, log entry 6). -/
def Obligations.ErrorWritesStatusOnly : Prop :=
  ∀ (s t : State) (w : Word) (rest : List Event),
    s.pending = .transaction ⟨.write w, 0x04, .four⟩ :: rest → w ≠ 0 → step s = .next t →
    statusErr t.status = true →
    ∃ code, 1 ≤ code ∧ code ≤ 4 ∧ statusErrcode t.status = BitVec.ofNat 4 code ∧
      t = { s with
        pending := rest
        status := BitVec.ofNat 32 (w.toNat % 16 * 256 + code * 16 + 2)
        responses := s.responses ++ [⟨.okay, none⟩] }

/-- R122: a command other than NOP that raises no error leaves (OP << 8) | 1 in STATUS. -/
def Obligations.SuccessRecord : Prop :=
  ∀ (s t : State) (w : Word) (rest : List Event),
    s.pending = .transaction ⟨.write w, 0x04, .four⟩ :: rest → w ≠ 0 → step s = .next t →
    statusErr t.status = false →
    (w = 1 ∧ t.status = 0x00000101) ∨ (w = 2 ∧ t.status = 0x00000201)

/-- R39, row by row, over every event: who writes STATUS and the result registers, and what. -/
def Obligations.OnlyCommandsAndResetWriteResults : Prop :=
  ∀ (s t : State) (e : Event) (rest : List Event), s.pending = e :: rest → step s = .next t →
    let unchanged := t.header = s.header ∧ t.cksum = s.cksum ∧ t.sum = s.sum ∧ t.ckInfo = s.ckInfo ∧
      t.frameLo = s.frameLo ∧ t.frameHi = s.frameHi ∧ t.frameWidth = s.frameWidth
    (e = .reset → t.status = 0 ∧ t.header = 0 ∧ t.cksum = 0 ∧ t.sum = 0 ∧ t.ckInfo = 0 ∧
      t.frameLo = 0 ∧ t.frameHi = 0 ∧ t.frameWidth = 0) ∧
    (e ≠ .reset → cmdWordOf s.baseAddr e = none → t.status = s.status ∧ unchanged) ∧
    (cmdWordOf s.baseAddr e = some 0 → t.status = s.status ∧ unchanged) ∧
    (∀ w, cmdWordOf s.baseAddr e = some w → w ≠ 0 → statusErr t.status = true →
      statusValid t.status = false ∧ statusErrcode t.status ≠ 0 ∧ statusLastop t.status = w.extractLsb' 0 4 ∧
        unchanged) ∧
    (∀ w, cmdWordOf s.baseAddr e = some w → w ≠ 0 → statusErr t.status = false →
      statusValid t.status = true ∧ statusErrcode t.status = 0 ∧
      ((w = 1 ∧ statusLastop t.status = 1 ∧ reportsEngine t s.ckIn.toNat ∧ t.header = s.header ∧
          t.frameLo = s.frameLo ∧ t.frameHi = s.frameHi ∧ t.frameWidth = s.frameWidth) ∨
        (w = 2 ∧ statusLastop t.status = 2 ∧ reportsEngine t t.header.toNat ∧
          holdsFrame t ⟨s.dest.toNat % 256, s.data.toNat % 256⟩)))

/-! ## Host access -/

/-- R43: a transaction that is not an aligned 4-byte one at 0x00 to 0x30 is answered ERROR with rdata 0 and changes
nothing; a write aimed at CMD starts no command. -/
def Obligations.UnacceptedAccessHasNoEffect : Prop :=
  ∀ (s : State) (x : Transaction) (rest : List Event), s.pending = .transaction x :: rest →
    ¬ (x.size = .four ∧ x.off.toNat % 4 = 0 ∧ x.off.toNat ≤ 0x30) →
    step s = .next { s with pending := rest, responses := s.responses ++ [⟨.error, some 0⟩] }

/-- R44 with R24 to R36: an accepted READ returns the register at the offset and changes nothing. -/
def Obligations.ReadReturnsRegister : Prop :=
  ∀ (s : State) (off : BitVec 8) (v : Word) (rest : List Event),
    s.pending = .transaction ⟨.read, off, .four⟩ :: rest →
    (off, v) ∈ [(0x00#8, configWord s.build), (0x04#8, 0#32), (0x08#8, s.status), (0x0C#8, s.dest),
      (0x10#8, s.data), (0x14#8, s.ckIn), (0x18#8, s.header), (0x1C#8, s.cksum), (0x20#8, s.sum),
      (0x24#8, s.ckInfo), (0x28#8, s.frameLo), (0x2C#8, s.frameHi), (0x30#8, s.frameWidth)] →
    step s = .next { s with pending := rest, responses := s.responses ++ [⟨.okay, some v⟩] }

/-- Three registers store all 32 bits, the read-only ones ignore the write, CMD performs the command; the response is
OKAY in every case, after the command and after its error too (R45). That the response has no rdata is the model's
reading (DEDUCED, log entry 6). -/
def Obligations.WriteActsByRegister : Prop :=
  ∀ (s : State) (off : BitVec 8) (v : Word) (rest : List Event),
    s.pending = .transaction ⟨.write v, off, .four⟩ :: rest →
    (off = 0x0C → step s = .next { s with
      pending := rest, dest := v, responses := s.responses ++ [⟨.okay, none⟩] }) ∧
    (off = 0x10 → step s = .next { s with
      pending := rest, data := v, responses := s.responses ++ [⟨.okay, none⟩] }) ∧
    (off = 0x14 → step s = .next { s with
      pending := rest, ckIn := v, responses := s.responses ++ [⟨.okay, none⟩] }) ∧
    (off ∈ [0x00#8, 0x08#8, 0x18#8, 0x1C#8, 0x20#8, 0x24#8, 0x28#8, 0x2C#8, 0x30#8] →
      step s = .next { s with pending := rest, responses := s.responses ++ [⟨.okay, none⟩] }) ∧
    (off = 0x04 → ∃ t, performCommand v { s with pending := rest } = .next t ∧
      step s = .next { t with responses := s.responses ++ [⟨.okay, none⟩] })

/-- A READ of an operand register right after a WRITE of it returns the value written, every bit (R27 to R29, R52). That
the WRITE's response has no rdata is the model's reading (DEDUCED, log entry 6). -/
def Obligations.OperandReadsBackWritten : Prop :=
  ∀ (s : State) (off : BitVec 8) (v : Word) (rest : List Event), off ∈ [0x0C#8, 0x10#8, 0x14#8] →
    s.pending = .transaction ⟨.write v, off, .four⟩ :: .transaction ⟨.read, off, .four⟩ :: rest →
    ∃ t u, step s = .next t ∧ step t = .next u ∧
      u.responses = s.responses ++ [⟨.okay, none⟩, ⟨.okay, some v⟩] ∧ u.pending = rest

/-- Writing an operand register after a command changes no result already written (R135, R55). -/
def Obligations.OperandWriteKeepsResults : Prop :=
  ∀ (s t : State) (off : BitVec 8) (v : Word) (rest : List Event), off ∈ [0x0C#8, 0x10#8, 0x14#8] →
    s.pending = .transaction ⟨.write v, off, .four⟩ :: rest → step s = .next t →
    ∀ r : Reg, r.offset ≠ off → readReg t r = readReg s r

/-- An access by system address is the transaction at its offset inside the window, and outside it does not reach the
block (R41); that it then gets no response is the model's reading (log entry 4). -/
def Obligations.SystemAccessReachesWindowOnly : Prop :=
  ∀ (s : State) (addr : Nat) (kind : Access) (size : Size) (rest : List Event),
    s.pending = .systemAccess addr kind size :: rest →
    (∀ off : BitVec 8, addr = s.baseAddr + off.toNat →
      step s = step { s with pending := .transaction ⟨kind, off, size⟩ :: rest }) ∧
    (addr < s.baseAddr ∨ s.baseAddr + 0x100 ≤ addr → step s = .next { s with pending := rest })

/-- A second master and a second outstanding transaction are refused by name (R127, R133). -/
def Obligations.ModelRefusesSecondMasterAndOverlap : Prop :=
  ∀ (s : State) (x y : Transaction) (rest : List Event),
    (s.pending = .secondMaster x :: rest → step s = .refused .secondMaster) ∧
    (s.pending = .overlap x y :: rest → step s = .refused .twoOutstanding)

/-! ## Build and reset -/

/-- The fields of CONFIG for every build, its default and reset value, that no step changes what it reads, and that a
write of it is ignored with OKAY (R24). That the response has no rdata is the model's reading (DEDUCED, log entry 6). -/
def Obligations.ConfigReportsBuild : Prop :=
  (∀ b : Build,
    (configWord b).extractLsb' 0 8 = b.srcAddr ∧ (configWord b).extractLsb' 8 8 = 8 ∧
    (configWord b).extractLsb' 16 8 = 8 ∧
    (configWord b).extractLsb' 24 2 = (match b.cwPolicy with | .actual => 0 | .nominal => 1 | .natural => 2) ∧
    (configWord b).extractLsb' 26 1 = (match b.rangePolicy with | .reject => 0 | .mask => 1) ∧
    (configWord b).extractLsb' 27 5 = 0) ∧
  configWord ⟨1, .actual, .reject⟩ = 0x00080801 ∧
  (∀ b base, readReg (State.resetOf b base) .config = configWord b) ∧
  (∀ s t : State, step s = .next t → readReg t .config = readReg s .config) ∧
  (∀ (s : State) (v : Word) (rest : List Event), s.pending = .transaction ⟨.write v, 0x00, .four⟩ :: rest →
    step s = .next { s with pending := rest, responses := s.responses ++ [⟨.okay, none⟩] })

/-- R130: no step, reset among them, changes the build or the value CONFIG reads. -/
def Obligations.NoStepChangesConfig : Prop :=
  ∀ s t : State, step s = .next t →
    t.build = s.build ∧ readReg t .config = readReg s .config ∧ readReg t .config = configWord s.build

/-- No step changes BASE_ADDR. The spec makes it a parameter of the integration (R41, D2); holding it in State and letting
no step change it is the model's choice (log entry 2). -/
def Obligations.NoStepChangesBaseAddr : Prop :=
  ∀ s t : State, step s = .next t → t.baseAddr = s.baseAddr

/-- R129: reset sets every register to its reset value, from any state, and keeps the build. -/
def Obligations.ResetSetsEveryRegister : Prop :=
  (∀ (s : State) (rest : List Event), s.pending = .reset :: rest →
    ∃ t, step s = .next t ∧ t.pending = rest ∧
      readReg t .config = readReg s .config ∧ readReg t .cmd = 0 ∧
      ∀ r : Reg, r ≠ .config → readReg t r = 0) ∧
  (readReg State.reset .config = 0x00080801 ∧ ∀ r : Reg, r ≠ .config → readReg State.reset r = 0)

/-- The builds the spec calls invalid are refused (SRC_ADDR of 256 or more, R7; CW_POLICY code 3, R9; D23), and so are the
policy codes it gives no meaning: a RANGE_POLICY code of 2 or more, on which R8 is silent, and a CW_POLICY code above 3, on
which R9 is. Refusing those is the model's reading (DEDUCED, log entry 1). A build that is not refused is what its numbers
say in CONFIG (R24). -/
def Obligations.InvalidBuildsAreRefused : Prop :=
  ∀ src cw range : Nat,
    (elaborateBuild src cw range = none ↔ 256 ≤ src ∨ 3 ≤ cw ∨ 2 ≤ range) ∧
    (∀ b, elaborateBuild src cw range = some b →
      (configWord b).toNat = src + 8 * 2 ^ 8 + 8 * 2 ^ 16 + cw * 2 ^ 24 + range * 2 ^ 26)

/-! ## The wire contract -/

/-- R109: the event list of an emission, run by run and bit by bit. The wait of T stands after its bit, and a pause after
the T of the last bit: the spec's own decision (D15). -/
def Obligations.EmissionIsTheEventList : Prop :=
  ∀ frame fw : Nat,
    let run := (List.range fw).reverse.flatMap fun i => [WireEvent.emit (frame.testBit i), WireEvent.wait 1]
    emission frame fw = run ++ [.wait 10] ++ run ++ [.wait 10] ++ run ++ [.wait 10] ++ run ++ [.wait 10] ++ run

/-- R110: the counts and the duration of an emission, and the 32-bit example's 1/6 s. -/
def Obligations.EmissionCounts : Prop :=
  (∀ frame n : Nat,
    ((emission frame n).filterMap WireEvent.bit).length = n * 5 ∧
    (emission frame n).count (.wait 1) = n * 5 ∧ (emission frame n).count (.wait 10) = 4 ∧
    durationT (emission frame n) = 5 * n + 40 ∧
    durationSeconds (emission frame n) = (5 * n + 40 : Rat) * (1 / 1200)) ∧
  durationSeconds (emission 0x808281E6 32) = 1 / 6

/-- R105 and R107: after a successful ENCODE an emission carries the frame's FRAME_WIDTH bits, most significant first,
five times over, and each run begins with a 1. -/
def Obligations.EmissionCarriesFrameBits : Prop :=
  ∀ s : State, encodeRuns s →
    ∃ t, exec .encode s = .next t ∧ bitlen (frameValue t) = t.frameWidth.toNat ∧
      let bits := (List.range t.frameWidth.toNat).reverse.map fun i => (frameValue t).testBit i
      bits.head? = some true ∧ bits.length = t.frameWidth.toNat ∧
      (emission (frameValue t) t.frameWidth.toNat).filterMap WireEvent.bit =
        (List.replicate 5 bits).flatten

/-- A hand-over starts the emission of (FRAME_HI << 32 | FRAME_LO, FRAME_WIDTH) (R104); a second one while it lasts is
refused (I10), and one before any frame exists is refused, which is the model's choice (log entry 9), as it is that the
frame is taken whole at the hand-over (log entry 8). -/
def Obligations.HandOverStartsEmission : Prop :=
  ∀ (s : State) (rest : List Event), s.pending = .handOver :: rest →
    (s.wireLeft = [] → s.frameWidth ≠ 0 → step s = .next { s with
      pending := rest
      wireLeft := emission (s.frameHi.toNat * 2 ^ 32 + s.frameLo.toNat) s.frameWidth.toNat }) ∧
    (s.wireLeft ≠ [] → step s = .refused .emissionInProgress) ∧
    (s.wireLeft = [] → s.frameWidth = 0 → step s = .refused .noFrame)

/-- Nothing is cancelled, reordered or added on the wire (R111): every step but a hand-over keeps the whole sequence of
events done and left, only moving events from left to done in order, and a hand-over appends one whole emission. The two
lists are the model's choice (log entry 8), and that a reset does not stop an emission its reading (log entry 11). -/
def Obligations.WireSequenceIsKept : Prop :=
  ∀ s t : State, step s = .next t →
    (∃ moved, t.wireDone = s.wireDone ++ moved) ∧
    ((∀ rest, s.pending ≠ .handOver :: rest) → t.wireDone ++ t.wireLeft = s.wireDone ++ s.wireLeft) ∧
    ((∃ rest, s.pending = .handOver :: rest) → t.wireDone ++ t.wireLeft =
      s.wireDone ++ s.wireLeft ++ emission (frameValue s) s.frameWidth.toNat)

/-- A tick of the serializer performs the first event left; with none left it changes nothing (R109). That ticks are
events of their own is the model's choice (log entry 8). -/
def Obligations.WireTickPerformsNextEvent : Prop :=
  ∀ (s : State) (rest : List Event), s.pending = .wireTick :: rest →
    (∀ e l, s.wireLeft = e :: l →
      step s = .next { s with pending := rest, wireLeft := l, wireDone := s.wireDone ++ [e] }) ∧
    (s.wireLeft = [] → step s = .next { s with pending := rest })

/-- A hand-over followed by as many ticks as its emission has events puts the whole emission on the wire (R111). That the
serializer moves on tick events and takes the frame at the hand-over is the model's choice (log entry 8). -/
def Obligations.EmissionRunsToCompletion : Prop :=
  ∀ (s : State) (rest : List Event), s.wireLeft = [] → s.frameWidth ≠ 0 →
    let l := emission (frameValue s) s.frameWidth.toNat
    l.length = 10 * s.frameWidth.toNat + 4 ∧
    (s.pending = .handOver :: (List.replicate l.length .wireTick ++ rest) →
      Sys2Proof.core.run (l.length + 1) s = .next { s with pending := rest, wireDone := s.wireDone ++ l })

/-! ## The invariant -/

/-- The invariant holds after reset of every build. -/
def Obligations.InvHoldsAtReset : Prop :=
  (∀ b base, Inv (State.resetOf b base)) ∧ Inv State.reset

/-- Every step keeps the invariant, whatever the outside world does. -/
def Obligations.StepKeepsInv : Prop :=
  ∀ s t : State, Inv s → step s = .next t → Inv t

/-- Every state the machine can be in, from reset of any build and with any events to come, meets the invariant. -/
def Obligations.EveryRunKeepsInv : Prop :=
  ∀ (b : Build) (base n : Nat) (events : List Event) (t : State),
    Sys2Proof.core.run n ((State.resetOf b base).withPending events) = .next t → Inv t

/-- R37 and the reserved bits of R26, R30 to R36: where the invariant holds, every reserved bit reads 0, VALID and ERR
are never both 1, and ERRCODE is 0 exactly when ERR is. -/
def Obligations.InvReservedBitsReadZero : Prop :=
  ∀ s : State, Inv s →
    s.status.extractLsb' 2 2 = 0 ∧ s.status.extractLsb' 12 20 = 0 ∧
    ¬ (statusValid s.status = true ∧ statusErr s.status = true) ∧
    (statusErr s.status = false ↔ statusErrcode s.status = 0) ∧ statusErrcode s.status ≤ 4 ∧
    s.header.extractLsb' 25 7 = 0 ∧ s.cksum.extractLsb' 10 22 = 0 ∧ s.sum.extractLsb' 10 22 = 0 ∧
    s.ckInfo.extractLsb' 24 8 = 0 ∧ s.frameHi.extractLsb' 2 30 = 0 ∧ s.frameWidth.extractLsb' 8 24 = 0 ∧
    (configWord s.build).extractLsb' 27 5 = 0 ∧ readReg s .cmd = 0

/-- Where the invariant holds and STATUS reports an ENCODE, the frame registers check out against the engine: the top
25 bits are HEADER, the rest is the policy's checksum field of HEADER, and CKSUM and SUM are the engine's (R95, R132). -/
def Obligations.ReportedFrameChecksOut : Prop :=
  ∀ s : State, Inv s → statusValid s.status = true → statusLastop s.status = 2 →
    let h := s.header.toNat
    let f := checksumField s.build.cwPolicy (engine h)
    frameValue s >>> (s.frameWidth.toNat - 25) = h ∧ frameValue s % 2 ^ (s.frameWidth.toNat - 25) = f.cf ∧
    s.frameWidth.toNat = 25 + f.ffw ∧ bitlen (frameValue s) = s.frameWidth.toNat ∧
    s.cksum.toNat = (engine h).ck ∧ s.sum.toNat = (engine h).sum ∧
    (h >>> 16) % 256 = s.build.srcAddr.toNat
end

