-- ==== Sys2Proof/Laws/Bits.lean ====
section
/-! SUPPORT. What bitlen and the k-bit mask are, and the section width (R13, R73). -/

namespace Sys2Proof.Machine

theorem bitlen_zero : bitlen 0 = 0 := rfl

theorem bitlen_of_pos {v : Nat} (h : 0 < v) : bitlen v = Nat.log2 v + 1 := if_neg (by omega)

/-- The one fact about bitlen: it is at most n exactly when the value is below 2^n. -/
theorem bitlen_le_iff {v n : Nat} : bitlen v ≤ n ↔ v < 2 ^ n := by
  rcases Nat.eq_zero_or_pos v with rfl | h
  · simp [bitlen_zero]
  · rw [bitlen_of_pos h, Nat.succ_le_iff, Nat.log2_lt (by omega)]

theorem lt_bitlen_iff {v n : Nat} : n < bitlen v ↔ 2 ^ n ≤ v := by
  have := bitlen_le_iff (v := v) (n := n)
  omega

theorem lt_two_pow_bitlen (v : Nat) : v < 2 ^ bitlen v := bitlen_le_iff.mp le_rfl

theorem bitlen_pos {v : Nat} (h : 0 < v) : 0 < bitlen v := lt_bitlen_iff.mpr (by rw [pow_zero]; exact h)

/-- A value in [2^n, 2^(n+1)) has bit length n + 1. -/
theorem bitlen_eq_succ {v n : Nat} (lo : 2 ^ n ≤ v) (hi : v < 2 ^ (n + 1)) : bitlen v = n + 1 :=
  le_antisymm (bitlen_le_iff.mpr hi) (lt_bitlen_iff.mpr lo)

theorem bitlen_mono {u v : Nat} (h : u ≤ v) : bitlen u ≤ bitlen v :=
  bitlen_le_iff.mpr (h.trans_lt (lt_two_pow_bitlen v))

theorem and_onesMask (h k : Nat) : h &&& onesMask k = h % 2 ^ k := Nat.and_two_pow_sub_one_eq_mod h k

theorem testBit_onesMask (k i : Nat) : (onesMask k).testBit i = decide (i < k) := by
  simp [onesMask]

theorem le_four_sectionWidth (l : Nat) : l ≤ 4 * sectionWidth l := by unfold sectionWidth; omega

theorem four_sectionWidth_le (l : Nat) : 4 * sectionWidth l ≤ l + 3 := by unfold sectionWidth; omega

theorem sectionWidth_pos {l : Nat} (h : 0 < l) : 0 < sectionWidth l := by unfold sectionWidth; omega

theorem section1_eq (h k : Nat) : section1 h k = h % 2 ^ k := and_onesMask h k

theorem section2_eq (h k : Nat) : section2 h k = h / 2 ^ k % 2 ^ k := by
  rw [section2, and_onesMask, Nat.shiftRight_eq_div_pow]

theorem section3_eq (h k : Nat) : section3 h k = h / 2 ^ (2 * k) % 2 ^ k := by
  rw [section3, and_onesMask, Nat.shiftRight_eq_div_pow]

theorem section4_eq (h k : Nat) : section4 h k = h / 2 ^ (3 * k) := Nat.shiftRight_eq_div_pow h (3 * k)

end Sys2Proof.Machine
end

