-- ==== Sys2Proof/Laws/Engine.lean ====
section
/-! SUPPORT. The engine's result, field by field (R79); cite these instead of unfolding it. -/

namespace Sys2Proof.Machine

variable (h : Nat)

@[simp] theorem engine_l : (engine h).l = bitlen h := rfl
theorem engine_k : (engine h).k = sectionWidth (bitlen h) := rfl
theorem engine_s1 : (engine h).s1 = section1 h (engine h).k := rfl
theorem engine_s2 : (engine h).s2 = section2 h (engine h).k := rfl
theorem engine_s3 : (engine h).s3 = section3 h (engine h).k := rfl
theorem engine_s4 : (engine h).s4 = section4 h (engine h).k := rfl
theorem engine_sum : (engine h).sum = (engine h).s1 + (engine h).s2 + (engine h).s3 + (engine h).s4 := rfl
theorem engine_ck : (engine h).ck = (engine h).sum ^^^ onesMask (engine h).k := rfl
theorem engine_cw : (engine h).cw = max (engine h).k (bitlen (engine h).sum) := rfl

theorem engine_l_le_four_k : (engine h).l ≤ 4 * (engine h).k := le_four_sectionWidth (bitlen h)

theorem engine_k_pos (pos : 0 < h) : 0 < (engine h).k := sectionWidth_pos (bitlen_pos pos)

theorem engine_s1_lt : (engine h).s1 < 2 ^ (engine h).k := by
  rw [engine_s1, section1_eq]; exact Nat.mod_lt _ (by positivity)

theorem engine_s2_lt : (engine h).s2 < 2 ^ (engine h).k := by
  rw [engine_s2, section2_eq]; exact Nat.mod_lt _ (by positivity)

theorem engine_s3_lt : (engine h).s3 < 2 ^ (engine h).k := by
  rw [engine_s3, section3_eq]; exact Nat.mod_lt _ (by positivity)

/-- Section 4 is not masked, and needs no mask: h has at most 4k bits (R81, C2). -/
theorem engine_s4_lt : (engine h).s4 < 2 ^ (engine h).k := by
  rw [engine_s4, section4_eq, Nat.div_lt_iff_lt_mul (by positivity), ← pow_add]
  calc h < 2 ^ bitlen h := lt_two_pow_bitlen h
    _ ≤ 2 ^ ((engine h).k + 3 * (engine h).k) :=
      Nat.pow_le_pow_right (by norm_num) (by have := engine_l_le_four_k h; simp only [engine_l] at this; omega)

/-- The checksum of a value fits the output width: complementing the low k bits sets no bit above CW. -/
theorem engine_ck_lt : (engine h).ck < 2 ^ (engine h).cw := by
  rw [engine_ck]
  refine Nat.xor_lt_two_pow ?_ ?_
  · exact bitlen_le_iff.mp (engine_cw h ▸ le_max_right _ _)
  · exact (Nat.sub_lt (by positivity) one_pos).trans_le
      (Nat.pow_le_pow_right (by norm_num) (engine_cw h ▸ le_max_left _ _))

end Sys2Proof.Machine
end

