-- ==== Sys2Proof/Laws/Flags.lean ====
section
/-! SUPPORT. The fields of the two STATUS records (R121, R122), each record as a function of OP alone. -/

namespace Sys2Proof.Machine

theorem lastopField_eq (w : Word) : lastopField w = (cmdOp w).setWidth 32 <<< 8 := by
  have : w &&& 0xF = (cmdOp w).setWidth 32 := by
    apply BitVec.eq_of_toNat_eq
    have low : w.toNat &&& 15 = w.toNat % 16 := Nat.and_two_pow_sub_one_eq_mod w.toNat 4
    simp [cmdOp, BitVec.extractLsb'_toNat, low]
    omega
  rw [lastopField, this]

theorem errorRecord_eq (w : Word) (c : ErrorCode) :
    errorRecord w c = (cmdOp w).setWidth 32 <<< 8 ||| (c.code <<< 4) ||| (1 <<< 1) := by
  rw [errorRecord, lastopField_eq]

theorem successRecord_eq (w : Word) : successRecord w = (cmdOp w).setWidth 32 <<< 8 ||| 1 := by
  rw [successRecord, lastopField_eq]

/-- An error record says ERR and not VALID, and names the word's OP and the code (R121). -/
theorem errorRecord_fields (w : Word) (c : ErrorCode) :
    statusErr (errorRecord w c) = true ∧ statusValid (errorRecord w c) = false ∧
    statusLastop (errorRecord w c) = cmdOp w ∧ (statusErrcode (errorRecord w c)).setWidth 32 = c.code := by
  rw [errorRecord_eq]
  generalize cmdOp w = op
  cases c <;> revert op <;> decide

/-- A success record says VALID and not ERR, with no code, and names the word's OP (R122). -/
theorem successRecord_fields (w : Word) :
    statusErr (successRecord w) = false ∧ statusValid (successRecord w) = true ∧
    statusLastop (successRecord w) = cmdOp w ∧ statusErrcode (successRecord w) = 0 := by
  rw [successRecord_eq]
  generalize cmdOp w = op
  revert op; decide

/-! The records of the two commands, as the numbers R39 and R122 give. -/

@[simp] theorem successRecord_cksum : successRecord (encode .cksum) = 0x101 := by decide
@[simp] theorem successRecord_encode : successRecord (encode .encode) = 0x201 := by decide
@[simp] theorem errorRecord_degenerate : errorRecord (encode .cksum) .degenerate = 0x132 := by decide
@[simp] theorem errorRecord_rangeDest : errorRecord (encode .encode) .rangeDest = 0x212 := by decide
@[simp] theorem errorRecord_rangeData : errorRecord (encode .encode) .rangeData = 0x222 := by decide

/-- The error record as a number: OP in LASTOP, the code in ERRCODE, ERR set. -/
theorem errorRecord_ofNat (w : Word) (c : ErrorCode) :
    errorRecord w c = BitVec.ofNat 32 (w.toNat % 16 * 256 + c.code.toNat * 16 + 2) := by
  have op : w.toNat % 16 = (cmdOp w).toNat := by simp [cmdOp, BitVec.extractLsb'_toNat]
  rw [errorRecord_eq, op]
  generalize cmdOp w = op
  cases c <;> revert op <;> decide

end Sys2Proof.Machine
end

