-- ==== Sys2Proof/Laws/State.lean ====
section
/-! SUPPORT. For each update of State and each of its fields, what the field is afterwards. -/

namespace Sys2Proof.Machine

variable (s : State)

/-! ## withStatus -/

@[simp] theorem State.withStatus_build (v : Word) : (s.withStatus v).build = s.build := rfl
@[simp] theorem State.withStatus_baseAddr (v : Word) : (s.withStatus v).baseAddr = s.baseAddr := rfl
@[simp] theorem State.withStatus_status (v : Word) : (s.withStatus v).status = v := rfl
@[simp] theorem State.withStatus_dest (v : Word) : (s.withStatus v).dest = s.dest := rfl
@[simp] theorem State.withStatus_data (v : Word) : (s.withStatus v).data = s.data := rfl
@[simp] theorem State.withStatus_ckIn (v : Word) : (s.withStatus v).ckIn = s.ckIn := rfl
@[simp] theorem State.withStatus_header (v : Word) : (s.withStatus v).header = s.header := rfl
@[simp] theorem State.withStatus_cksum (v : Word) : (s.withStatus v).cksum = s.cksum := rfl
@[simp] theorem State.withStatus_sum (v : Word) : (s.withStatus v).sum = s.sum := rfl
@[simp] theorem State.withStatus_ckInfo (v : Word) : (s.withStatus v).ckInfo = s.ckInfo := rfl
@[simp] theorem State.withStatus_frameLo (v : Word) : (s.withStatus v).frameLo = s.frameLo := rfl
@[simp] theorem State.withStatus_frameHi (v : Word) : (s.withStatus v).frameHi = s.frameHi := rfl
@[simp] theorem State.withStatus_frameWidth (v : Word) : (s.withStatus v).frameWidth = s.frameWidth := rfl
@[simp] theorem State.withStatus_pending (v : Word) : (s.withStatus v).pending = s.pending := rfl
@[simp] theorem State.withStatus_responses (v : Word) : (s.withStatus v).responses = s.responses := rfl
@[simp] theorem State.withStatus_wireLeft (v : Word) : (s.withStatus v).wireLeft = s.wireLeft := rfl
@[simp] theorem State.withStatus_wireDone (v : Word) : (s.withStatus v).wireDone = s.wireDone := rfl

/-! ## withDest -/

@[simp] theorem State.withDest_build (v : Word) : (s.withDest v).build = s.build := rfl
@[simp] theorem State.withDest_baseAddr (v : Word) : (s.withDest v).baseAddr = s.baseAddr := rfl
@[simp] theorem State.withDest_status (v : Word) : (s.withDest v).status = s.status := rfl
@[simp] theorem State.withDest_dest (v : Word) : (s.withDest v).dest = v := rfl
@[simp] theorem State.withDest_data (v : Word) : (s.withDest v).data = s.data := rfl
@[simp] theorem State.withDest_ckIn (v : Word) : (s.withDest v).ckIn = s.ckIn := rfl
@[simp] theorem State.withDest_header (v : Word) : (s.withDest v).header = s.header := rfl
@[simp] theorem State.withDest_cksum (v : Word) : (s.withDest v).cksum = s.cksum := rfl
@[simp] theorem State.withDest_sum (v : Word) : (s.withDest v).sum = s.sum := rfl
@[simp] theorem State.withDest_ckInfo (v : Word) : (s.withDest v).ckInfo = s.ckInfo := rfl
@[simp] theorem State.withDest_frameLo (v : Word) : (s.withDest v).frameLo = s.frameLo := rfl
@[simp] theorem State.withDest_frameHi (v : Word) : (s.withDest v).frameHi = s.frameHi := rfl
@[simp] theorem State.withDest_frameWidth (v : Word) : (s.withDest v).frameWidth = s.frameWidth := rfl
@[simp] theorem State.withDest_pending (v : Word) : (s.withDest v).pending = s.pending := rfl
@[simp] theorem State.withDest_responses (v : Word) : (s.withDest v).responses = s.responses := rfl
@[simp] theorem State.withDest_wireLeft (v : Word) : (s.withDest v).wireLeft = s.wireLeft := rfl
@[simp] theorem State.withDest_wireDone (v : Word) : (s.withDest v).wireDone = s.wireDone := rfl

/-! ## withData -/

@[simp] theorem State.withData_build (v : Word) : (s.withData v).build = s.build := rfl
@[simp] theorem State.withData_baseAddr (v : Word) : (s.withData v).baseAddr = s.baseAddr := rfl
@[simp] theorem State.withData_status (v : Word) : (s.withData v).status = s.status := rfl
@[simp] theorem State.withData_dest (v : Word) : (s.withData v).dest = s.dest := rfl
@[simp] theorem State.withData_data (v : Word) : (s.withData v).data = v := rfl
@[simp] theorem State.withData_ckIn (v : Word) : (s.withData v).ckIn = s.ckIn := rfl
@[simp] theorem State.withData_header (v : Word) : (s.withData v).header = s.header := rfl
@[simp] theorem State.withData_cksum (v : Word) : (s.withData v).cksum = s.cksum := rfl
@[simp] theorem State.withData_sum (v : Word) : (s.withData v).sum = s.sum := rfl
@[simp] theorem State.withData_ckInfo (v : Word) : (s.withData v).ckInfo = s.ckInfo := rfl
@[simp] theorem State.withData_frameLo (v : Word) : (s.withData v).frameLo = s.frameLo := rfl
@[simp] theorem State.withData_frameHi (v : Word) : (s.withData v).frameHi = s.frameHi := rfl
@[simp] theorem State.withData_frameWidth (v : Word) : (s.withData v).frameWidth = s.frameWidth := rfl
@[simp] theorem State.withData_pending (v : Word) : (s.withData v).pending = s.pending := rfl
@[simp] theorem State.withData_responses (v : Word) : (s.withData v).responses = s.responses := rfl
@[simp] theorem State.withData_wireLeft (v : Word) : (s.withData v).wireLeft = s.wireLeft := rfl
@[simp] theorem State.withData_wireDone (v : Word) : (s.withData v).wireDone = s.wireDone := rfl

/-! ## withCkIn -/

@[simp] theorem State.withCkIn_build (v : Word) : (s.withCkIn v).build = s.build := rfl
@[simp] theorem State.withCkIn_baseAddr (v : Word) : (s.withCkIn v).baseAddr = s.baseAddr := rfl
@[simp] theorem State.withCkIn_status (v : Word) : (s.withCkIn v).status = s.status := rfl
@[simp] theorem State.withCkIn_dest (v : Word) : (s.withCkIn v).dest = s.dest := rfl
@[simp] theorem State.withCkIn_data (v : Word) : (s.withCkIn v).data = s.data := rfl
@[simp] theorem State.withCkIn_ckIn (v : Word) : (s.withCkIn v).ckIn = v := rfl
@[simp] theorem State.withCkIn_header (v : Word) : (s.withCkIn v).header = s.header := rfl
@[simp] theorem State.withCkIn_cksum (v : Word) : (s.withCkIn v).cksum = s.cksum := rfl
@[simp] theorem State.withCkIn_sum (v : Word) : (s.withCkIn v).sum = s.sum := rfl
@[simp] theorem State.withCkIn_ckInfo (v : Word) : (s.withCkIn v).ckInfo = s.ckInfo := rfl
@[simp] theorem State.withCkIn_frameLo (v : Word) : (s.withCkIn v).frameLo = s.frameLo := rfl
@[simp] theorem State.withCkIn_frameHi (v : Word) : (s.withCkIn v).frameHi = s.frameHi := rfl
@[simp] theorem State.withCkIn_frameWidth (v : Word) : (s.withCkIn v).frameWidth = s.frameWidth := rfl
@[simp] theorem State.withCkIn_pending (v : Word) : (s.withCkIn v).pending = s.pending := rfl
@[simp] theorem State.withCkIn_responses (v : Word) : (s.withCkIn v).responses = s.responses := rfl
@[simp] theorem State.withCkIn_wireLeft (v : Word) : (s.withCkIn v).wireLeft = s.wireLeft := rfl
@[simp] theorem State.withCkIn_wireDone (v : Word) : (s.withCkIn v).wireDone = s.wireDone := rfl

/-! ## withChecksum -/

@[simp] theorem State.withChecksum_build (ck sm l k cw : Nat) : (s.withChecksum ck sm l k cw).build = s.build := rfl
@[simp] theorem State.withChecksum_baseAddr (ck sm l k cw : Nat) : (s.withChecksum ck sm l k cw).baseAddr =
    s.baseAddr := rfl
@[simp] theorem State.withChecksum_status (ck sm l k cw : Nat) : (s.withChecksum ck sm l k cw).status =
    s.status := rfl
@[simp] theorem State.withChecksum_dest (ck sm l k cw : Nat) : (s.withChecksum ck sm l k cw).dest = s.dest := rfl
@[simp] theorem State.withChecksum_data (ck sm l k cw : Nat) : (s.withChecksum ck sm l k cw).data = s.data := rfl
@[simp] theorem State.withChecksum_ckIn (ck sm l k cw : Nat) : (s.withChecksum ck sm l k cw).ckIn = s.ckIn := rfl
@[simp] theorem State.withChecksum_header (ck sm l k cw : Nat) : (s.withChecksum ck sm l k cw).header =
    s.header := rfl
@[simp] theorem State.withChecksum_cksum (ck sm l k cw : Nat) : (s.withChecksum ck sm l k cw).cksum =
    BitVec.ofNat 32 ck := rfl
@[simp] theorem State.withChecksum_sum (ck sm l k cw : Nat) : (s.withChecksum ck sm l k cw).sum =
    BitVec.ofNat 32 sm := rfl
@[simp] theorem State.withChecksum_ckInfo (ck sm l k cw : Nat) : (s.withChecksum ck sm l k cw).ckInfo =
    BitVec.ofNat 32 ((l <<< 16) ||| (k <<< 8) ||| cw) := rfl
@[simp] theorem State.withChecksum_frameLo (ck sm l k cw : Nat) : (s.withChecksum ck sm l k cw).frameLo =
    s.frameLo := rfl
@[simp] theorem State.withChecksum_frameHi (ck sm l k cw : Nat) : (s.withChecksum ck sm l k cw).frameHi =
    s.frameHi := rfl
@[simp] theorem State.withChecksum_frameWidth (ck sm l k cw : Nat) : (s.withChecksum ck sm l k cw).frameWidth =
    s.frameWidth := rfl
@[simp] theorem State.withChecksum_pending (ck sm l k cw : Nat) : (s.withChecksum ck sm l k cw).pending =
    s.pending := rfl
@[simp] theorem State.withChecksum_responses (ck sm l k cw : Nat) : (s.withChecksum ck sm l k cw).responses =
    s.responses := rfl
@[simp] theorem State.withChecksum_wireLeft (ck sm l k cw : Nat) : (s.withChecksum ck sm l k cw).wireLeft =
    s.wireLeft := rfl
@[simp] theorem State.withChecksum_wireDone (ck sm l k cw : Nat) : (s.withChecksum ck sm l k cw).wireDone =
    s.wireDone := rfl

/-! ## withEngine -/

@[simp] theorem State.withEngine_build (r : EngineResult) : (s.withEngine r).build = s.build := rfl
@[simp] theorem State.withEngine_baseAddr (r : EngineResult) : (s.withEngine r).baseAddr = s.baseAddr := rfl
@[simp] theorem State.withEngine_status (r : EngineResult) : (s.withEngine r).status = s.status := rfl
@[simp] theorem State.withEngine_dest (r : EngineResult) : (s.withEngine r).dest = s.dest := rfl
@[simp] theorem State.withEngine_data (r : EngineResult) : (s.withEngine r).data = s.data := rfl
@[simp] theorem State.withEngine_ckIn (r : EngineResult) : (s.withEngine r).ckIn = s.ckIn := rfl
@[simp] theorem State.withEngine_header (r : EngineResult) : (s.withEngine r).header = s.header := rfl
@[simp] theorem State.withEngine_cksum (r : EngineResult) : (s.withEngine r).cksum = BitVec.ofNat 32 r.ck := rfl
@[simp] theorem State.withEngine_sum (r : EngineResult) : (s.withEngine r).sum = BitVec.ofNat 32 r.sum := rfl
@[simp] theorem State.withEngine_ckInfo (r : EngineResult) : (s.withEngine r).ckInfo =
    BitVec.ofNat 32 ((r.l <<< 16) ||| (r.k <<< 8) ||| r.cw) := rfl
@[simp] theorem State.withEngine_frameLo (r : EngineResult) : (s.withEngine r).frameLo = s.frameLo := rfl
@[simp] theorem State.withEngine_frameHi (r : EngineResult) : (s.withEngine r).frameHi = s.frameHi := rfl
@[simp] theorem State.withEngine_frameWidth (r : EngineResult) : (s.withEngine r).frameWidth = s.frameWidth := rfl
@[simp] theorem State.withEngine_pending (r : EngineResult) : (s.withEngine r).pending = s.pending := rfl
@[simp] theorem State.withEngine_responses (r : EngineResult) : (s.withEngine r).responses = s.responses := rfl
@[simp] theorem State.withEngine_wireLeft (r : EngineResult) : (s.withEngine r).wireLeft = s.wireLeft := rfl
@[simp] theorem State.withEngine_wireDone (r : EngineResult) : (s.withEngine r).wireDone = s.wireDone := rfl

/-! ## withFrame -/

@[simp] theorem State.withFrame_build (h frame fw : Nat) : (s.withFrame h frame fw).build = s.build := rfl
@[simp] theorem State.withFrame_baseAddr (h frame fw : Nat) : (s.withFrame h frame fw).baseAddr = s.baseAddr := rfl
@[simp] theorem State.withFrame_status (h frame fw : Nat) : (s.withFrame h frame fw).status = s.status := rfl
@[simp] theorem State.withFrame_dest (h frame fw : Nat) : (s.withFrame h frame fw).dest = s.dest := rfl
@[simp] theorem State.withFrame_data (h frame fw : Nat) : (s.withFrame h frame fw).data = s.data := rfl
@[simp] theorem State.withFrame_ckIn (h frame fw : Nat) : (s.withFrame h frame fw).ckIn = s.ckIn := rfl
@[simp] theorem State.withFrame_header (h frame fw : Nat) : (s.withFrame h frame fw).header = BitVec.ofNat 32 h := rfl
@[simp] theorem State.withFrame_cksum (h frame fw : Nat) : (s.withFrame h frame fw).cksum = s.cksum := rfl
@[simp] theorem State.withFrame_sum (h frame fw : Nat) : (s.withFrame h frame fw).sum = s.sum := rfl
@[simp] theorem State.withFrame_ckInfo (h frame fw : Nat) : (s.withFrame h frame fw).ckInfo = s.ckInfo := rfl
@[simp] theorem State.withFrame_frameLo (h frame fw : Nat) : (s.withFrame h frame fw).frameLo =
    BitVec.ofNat 32 (frame % 2 ^ 32) := rfl
@[simp] theorem State.withFrame_frameHi (h frame fw : Nat) : (s.withFrame h frame fw).frameHi =
    BitVec.ofNat 32 (frame >>> 32) := rfl
@[simp] theorem State.withFrame_frameWidth (h frame fw : Nat) : (s.withFrame h frame fw).frameWidth =
    BitVec.ofNat 32 fw := rfl
@[simp] theorem State.withFrame_pending (h frame fw : Nat) : (s.withFrame h frame fw).pending = s.pending := rfl
@[simp] theorem State.withFrame_responses (h frame fw : Nat) : (s.withFrame h frame fw).responses = s.responses := rfl
@[simp] theorem State.withFrame_wireLeft (h frame fw : Nat) : (s.withFrame h frame fw).wireLeft = s.wireLeft := rfl
@[simp] theorem State.withFrame_wireDone (h frame fw : Nat) : (s.withFrame h frame fw).wireDone = s.wireDone := rfl

/-! ## raiseError -/

@[simp] theorem State.raiseError_build (w : Word) (c : ErrorCode) : (s.raiseError w c).build = s.build := rfl
@[simp] theorem State.raiseError_baseAddr (w : Word) (c : ErrorCode) : (s.raiseError w c).baseAddr = s.baseAddr := rfl
@[simp] theorem State.raiseError_status (w : Word) (c : ErrorCode) : (s.raiseError w c).status =
    errorRecord w c := rfl
@[simp] theorem State.raiseError_dest (w : Word) (c : ErrorCode) : (s.raiseError w c).dest = s.dest := rfl
@[simp] theorem State.raiseError_data (w : Word) (c : ErrorCode) : (s.raiseError w c).data = s.data := rfl
@[simp] theorem State.raiseError_ckIn (w : Word) (c : ErrorCode) : (s.raiseError w c).ckIn = s.ckIn := rfl
@[simp] theorem State.raiseError_header (w : Word) (c : ErrorCode) : (s.raiseError w c).header = s.header := rfl
@[simp] theorem State.raiseError_cksum (w : Word) (c : ErrorCode) : (s.raiseError w c).cksum = s.cksum := rfl
@[simp] theorem State.raiseError_sum (w : Word) (c : ErrorCode) : (s.raiseError w c).sum = s.sum := rfl
@[simp] theorem State.raiseError_ckInfo (w : Word) (c : ErrorCode) : (s.raiseError w c).ckInfo = s.ckInfo := rfl
@[simp] theorem State.raiseError_frameLo (w : Word) (c : ErrorCode) : (s.raiseError w c).frameLo = s.frameLo := rfl
@[simp] theorem State.raiseError_frameHi (w : Word) (c : ErrorCode) : (s.raiseError w c).frameHi = s.frameHi := rfl
@[simp] theorem State.raiseError_frameWidth (w : Word) (c : ErrorCode) : (s.raiseError w c).frameWidth =
    s.frameWidth := rfl
@[simp] theorem State.raiseError_pending (w : Word) (c : ErrorCode) : (s.raiseError w c).pending = s.pending := rfl
@[simp] theorem State.raiseError_responses (w : Word) (c : ErrorCode) : (s.raiseError w c).responses =
    s.responses := rfl
@[simp] theorem State.raiseError_wireLeft (w : Word) (c : ErrorCode) : (s.raiseError w c).wireLeft = s.wireLeft := rfl
@[simp] theorem State.raiseError_wireDone (w : Word) (c : ErrorCode) : (s.raiseError w c).wireDone = s.wireDone := rfl

/-! ## succeed -/

@[simp] theorem State.succeed_build (w : Word) : (s.succeed w).build = s.build := rfl
@[simp] theorem State.succeed_baseAddr (w : Word) : (s.succeed w).baseAddr = s.baseAddr := rfl
@[simp] theorem State.succeed_status (w : Word) : (s.succeed w).status = successRecord w := rfl
@[simp] theorem State.succeed_dest (w : Word) : (s.succeed w).dest = s.dest := rfl
@[simp] theorem State.succeed_data (w : Word) : (s.succeed w).data = s.data := rfl
@[simp] theorem State.succeed_ckIn (w : Word) : (s.succeed w).ckIn = s.ckIn := rfl
@[simp] theorem State.succeed_header (w : Word) : (s.succeed w).header = s.header := rfl
@[simp] theorem State.succeed_cksum (w : Word) : (s.succeed w).cksum = s.cksum := rfl
@[simp] theorem State.succeed_sum (w : Word) : (s.succeed w).sum = s.sum := rfl
@[simp] theorem State.succeed_ckInfo (w : Word) : (s.succeed w).ckInfo = s.ckInfo := rfl
@[simp] theorem State.succeed_frameLo (w : Word) : (s.succeed w).frameLo = s.frameLo := rfl
@[simp] theorem State.succeed_frameHi (w : Word) : (s.succeed w).frameHi = s.frameHi := rfl
@[simp] theorem State.succeed_frameWidth (w : Word) : (s.succeed w).frameWidth = s.frameWidth := rfl
@[simp] theorem State.succeed_pending (w : Word) : (s.succeed w).pending = s.pending := rfl
@[simp] theorem State.succeed_responses (w : Word) : (s.succeed w).responses = s.responses := rfl
@[simp] theorem State.succeed_wireLeft (w : Word) : (s.succeed w).wireLeft = s.wireLeft := rfl
@[simp] theorem State.succeed_wireDone (w : Word) : (s.succeed w).wireDone = s.wireDone := rfl

/-! ## blockReset -/

@[simp] theorem State.blockReset_build : s.blockReset.build = s.build := rfl
@[simp] theorem State.blockReset_baseAddr : s.blockReset.baseAddr = s.baseAddr := rfl
@[simp] theorem State.blockReset_status : s.blockReset.status = 0 := rfl
@[simp] theorem State.blockReset_dest : s.blockReset.dest = 0 := rfl
@[simp] theorem State.blockReset_data : s.blockReset.data = 0 := rfl
@[simp] theorem State.blockReset_ckIn : s.blockReset.ckIn = 0 := rfl
@[simp] theorem State.blockReset_header : s.blockReset.header = 0 := rfl
@[simp] theorem State.blockReset_cksum : s.blockReset.cksum = 0 := rfl
@[simp] theorem State.blockReset_sum : s.blockReset.sum = 0 := rfl
@[simp] theorem State.blockReset_ckInfo : s.blockReset.ckInfo = 0 := rfl
@[simp] theorem State.blockReset_frameLo : s.blockReset.frameLo = 0 := rfl
@[simp] theorem State.blockReset_frameHi : s.blockReset.frameHi = 0 := rfl
@[simp] theorem State.blockReset_frameWidth : s.blockReset.frameWidth = 0 := rfl
@[simp] theorem State.blockReset_pending : s.blockReset.pending = s.pending := rfl
@[simp] theorem State.blockReset_responses : s.blockReset.responses = s.responses := rfl
@[simp] theorem State.blockReset_wireLeft : s.blockReset.wireLeft = s.wireLeft := rfl
@[simp] theorem State.blockReset_wireDone : s.blockReset.wireDone = s.wireDone := rfl

/-! ## withPending -/

@[simp] theorem State.withPending_build (p : List Event) : (s.withPending p).build = s.build := rfl
@[simp] theorem State.withPending_baseAddr (p : List Event) : (s.withPending p).baseAddr = s.baseAddr := rfl
@[simp] theorem State.withPending_status (p : List Event) : (s.withPending p).status = s.status := rfl
@[simp] theorem State.withPending_dest (p : List Event) : (s.withPending p).dest = s.dest := rfl
@[simp] theorem State.withPending_data (p : List Event) : (s.withPending p).data = s.data := rfl
@[simp] theorem State.withPending_ckIn (p : List Event) : (s.withPending p).ckIn = s.ckIn := rfl
@[simp] theorem State.withPending_header (p : List Event) : (s.withPending p).header = s.header := rfl
@[simp] theorem State.withPending_cksum (p : List Event) : (s.withPending p).cksum = s.cksum := rfl
@[simp] theorem State.withPending_sum (p : List Event) : (s.withPending p).sum = s.sum := rfl
@[simp] theorem State.withPending_ckInfo (p : List Event) : (s.withPending p).ckInfo = s.ckInfo := rfl
@[simp] theorem State.withPending_frameLo (p : List Event) : (s.withPending p).frameLo = s.frameLo := rfl
@[simp] theorem State.withPending_frameHi (p : List Event) : (s.withPending p).frameHi = s.frameHi := rfl
@[simp] theorem State.withPending_frameWidth (p : List Event) : (s.withPending p).frameWidth = s.frameWidth := rfl
@[simp] theorem State.withPending_pending (p : List Event) : (s.withPending p).pending = p := rfl
@[simp] theorem State.withPending_responses (p : List Event) : (s.withPending p).responses = s.responses := rfl
@[simp] theorem State.withPending_wireLeft (p : List Event) : (s.withPending p).wireLeft = s.wireLeft := rfl
@[simp] theorem State.withPending_wireDone (p : List Event) : (s.withPending p).wireDone = s.wireDone := rfl

/-! ## withResponse -/

@[simp] theorem State.withResponse_build (r : Response) : (s.withResponse r).build = s.build := rfl
@[simp] theorem State.withResponse_baseAddr (r : Response) : (s.withResponse r).baseAddr = s.baseAddr := rfl
@[simp] theorem State.withResponse_status (r : Response) : (s.withResponse r).status = s.status := rfl
@[simp] theorem State.withResponse_dest (r : Response) : (s.withResponse r).dest = s.dest := rfl
@[simp] theorem State.withResponse_data (r : Response) : (s.withResponse r).data = s.data := rfl
@[simp] theorem State.withResponse_ckIn (r : Response) : (s.withResponse r).ckIn = s.ckIn := rfl
@[simp] theorem State.withResponse_header (r : Response) : (s.withResponse r).header = s.header := rfl
@[simp] theorem State.withResponse_cksum (r : Response) : (s.withResponse r).cksum = s.cksum := rfl
@[simp] theorem State.withResponse_sum (r : Response) : (s.withResponse r).sum = s.sum := rfl
@[simp] theorem State.withResponse_ckInfo (r : Response) : (s.withResponse r).ckInfo = s.ckInfo := rfl
@[simp] theorem State.withResponse_frameLo (r : Response) : (s.withResponse r).frameLo = s.frameLo := rfl
@[simp] theorem State.withResponse_frameHi (r : Response) : (s.withResponse r).frameHi = s.frameHi := rfl
@[simp] theorem State.withResponse_frameWidth (r : Response) : (s.withResponse r).frameWidth = s.frameWidth := rfl
@[simp] theorem State.withResponse_pending (r : Response) : (s.withResponse r).pending = s.pending := rfl
@[simp] theorem State.withResponse_responses (r : Response) : (s.withResponse r).responses = s.responses ++ [r] := rfl
@[simp] theorem State.withResponse_wireLeft (r : Response) : (s.withResponse r).wireLeft = s.wireLeft := rfl
@[simp] theorem State.withResponse_wireDone (r : Response) : (s.withResponse r).wireDone = s.wireDone := rfl

/-! ## withEmission -/

@[simp] theorem State.withEmission_build (l : List WireEvent) : (s.withEmission l).build = s.build := rfl
@[simp] theorem State.withEmission_baseAddr (l : List WireEvent) : (s.withEmission l).baseAddr = s.baseAddr := rfl
@[simp] theorem State.withEmission_status (l : List WireEvent) : (s.withEmission l).status = s.status := rfl
@[simp] theorem State.withEmission_dest (l : List WireEvent) : (s.withEmission l).dest = s.dest := rfl
@[simp] theorem State.withEmission_data (l : List WireEvent) : (s.withEmission l).data = s.data := rfl
@[simp] theorem State.withEmission_ckIn (l : List WireEvent) : (s.withEmission l).ckIn = s.ckIn := rfl
@[simp] theorem State.withEmission_header (l : List WireEvent) : (s.withEmission l).header = s.header := rfl
@[simp] theorem State.withEmission_cksum (l : List WireEvent) : (s.withEmission l).cksum = s.cksum := rfl
@[simp] theorem State.withEmission_sum (l : List WireEvent) : (s.withEmission l).sum = s.sum := rfl
@[simp] theorem State.withEmission_ckInfo (l : List WireEvent) : (s.withEmission l).ckInfo = s.ckInfo := rfl
@[simp] theorem State.withEmission_frameLo (l : List WireEvent) : (s.withEmission l).frameLo = s.frameLo := rfl
@[simp] theorem State.withEmission_frameHi (l : List WireEvent) : (s.withEmission l).frameHi = s.frameHi := rfl
@[simp] theorem State.withEmission_frameWidth (l : List WireEvent) : (s.withEmission l).frameWidth =
    s.frameWidth := rfl
@[simp] theorem State.withEmission_pending (l : List WireEvent) : (s.withEmission l).pending = s.pending := rfl
@[simp] theorem State.withEmission_responses (l : List WireEvent) : (s.withEmission l).responses = s.responses := rfl
@[simp] theorem State.withEmission_wireLeft (l : List WireEvent) : (s.withEmission l).wireLeft = l := rfl
@[simp] theorem State.withEmission_wireDone (l : List WireEvent) : (s.withEmission l).wireDone = s.wireDone := rfl

/-! ## withEmitted -/

@[simp] theorem State.withEmitted_build (e : WireEvent) (l : List WireEvent) : (s.withEmitted e l).build =
    s.build := rfl
@[simp] theorem State.withEmitted_baseAddr (e : WireEvent) (l : List WireEvent) : (s.withEmitted e l).baseAddr =
    s.baseAddr := rfl
@[simp] theorem State.withEmitted_status (e : WireEvent) (l : List WireEvent) : (s.withEmitted e l).status =
    s.status := rfl
@[simp] theorem State.withEmitted_dest (e : WireEvent) (l : List WireEvent) : (s.withEmitted e l).dest = s.dest := rfl
@[simp] theorem State.withEmitted_data (e : WireEvent) (l : List WireEvent) : (s.withEmitted e l).data = s.data := rfl
@[simp] theorem State.withEmitted_ckIn (e : WireEvent) (l : List WireEvent) : (s.withEmitted e l).ckIn = s.ckIn := rfl
@[simp] theorem State.withEmitted_header (e : WireEvent) (l : List WireEvent) : (s.withEmitted e l).header =
    s.header := rfl
@[simp] theorem State.withEmitted_cksum (e : WireEvent) (l : List WireEvent) : (s.withEmitted e l).cksum =
    s.cksum := rfl
@[simp] theorem State.withEmitted_sum (e : WireEvent) (l : List WireEvent) : (s.withEmitted e l).sum = s.sum := rfl
@[simp] theorem State.withEmitted_ckInfo (e : WireEvent) (l : List WireEvent) : (s.withEmitted e l).ckInfo =
    s.ckInfo := rfl
@[simp] theorem State.withEmitted_frameLo (e : WireEvent) (l : List WireEvent) : (s.withEmitted e l).frameLo =
    s.frameLo := rfl
@[simp] theorem State.withEmitted_frameHi (e : WireEvent) (l : List WireEvent) : (s.withEmitted e l).frameHi =
    s.frameHi := rfl
@[simp] theorem State.withEmitted_frameWidth (e : WireEvent) (l : List WireEvent) : (s.withEmitted e l).frameWidth =
    s.frameWidth := rfl
@[simp] theorem State.withEmitted_pending (e : WireEvent) (l : List WireEvent) : (s.withEmitted e l).pending =
    s.pending := rfl
@[simp] theorem State.withEmitted_responses (e : WireEvent) (l : List WireEvent) : (s.withEmitted e l).responses =
    s.responses := rfl
@[simp] theorem State.withEmitted_wireLeft (e : WireEvent) (l : List WireEvent) : (s.withEmitted e l).wireLeft =
    l := rfl
@[simp] theorem State.withEmitted_wireDone (e : WireEvent) (l : List WireEvent) : (s.withEmitted e l).wireDone =
    s.wireDone ++ [e] := rfl

/-! ## withEncoding -/

@[simp] theorem State.withEncoding_build (h : Nat) : (s.withEncoding h).build = s.build := rfl
@[simp] theorem State.withEncoding_baseAddr (h : Nat) : (s.withEncoding h).baseAddr = s.baseAddr := rfl
@[simp] theorem State.withEncoding_status (h : Nat) : (s.withEncoding h).status =
    successRecord (encode .encode) := rfl
@[simp] theorem State.withEncoding_dest (h : Nat) : (s.withEncoding h).dest = s.dest := rfl
@[simp] theorem State.withEncoding_data (h : Nat) : (s.withEncoding h).data = s.data := rfl
@[simp] theorem State.withEncoding_ckIn (h : Nat) : (s.withEncoding h).ckIn = s.ckIn := rfl
@[simp] theorem State.withEncoding_header (h : Nat) : (s.withEncoding h).header = BitVec.ofNat 32 h := rfl
@[simp] theorem State.withEncoding_cksum (h : Nat) : (s.withEncoding h).cksum = BitVec.ofNat 32 (engine h).ck := rfl
@[simp] theorem State.withEncoding_sum (h : Nat) : (s.withEncoding h).sum = BitVec.ofNat 32 (engine h).sum := rfl
@[simp] theorem State.withEncoding_ckInfo (h : Nat) : (s.withEncoding h).ckInfo =
    BitVec.ofNat 32 (((engine h).l <<< 16) ||| ((engine h).k <<< 8) ||| (engine h).cw) := rfl
@[simp] theorem State.withEncoding_frameLo (h : Nat) : (s.withEncoding h).frameLo =
    BitVec.ofNat 32 (packFrame h (checksumField s.build.cwPolicy (engine h)) % 2 ^ 32) := rfl
@[simp] theorem State.withEncoding_frameHi (h : Nat) : (s.withEncoding h).frameHi =
    BitVec.ofNat 32 (packFrame h (checksumField s.build.cwPolicy (engine h)) >>> 32) := rfl
@[simp] theorem State.withEncoding_frameWidth (h : Nat) : (s.withEncoding h).frameWidth =
    BitVec.ofNat 32 (frameBits (checksumField s.build.cwPolicy (engine h))) := rfl
@[simp] theorem State.withEncoding_pending (h : Nat) : (s.withEncoding h).pending = s.pending := rfl
@[simp] theorem State.withEncoding_responses (h : Nat) : (s.withEncoding h).responses = s.responses := rfl
@[simp] theorem State.withEncoding_wireLeft (h : Nat) : (s.withEncoding h).wireLeft = s.wireLeft := rfl
@[simp] theorem State.withEncoding_wireDone (h : Nat) : (s.withEncoding h).wireDone = s.wireDone := rfl

end Sys2Proof.Machine
end

