-- ==== Sys2Proof/Laws/Commands.lean ====
section
/-! SUPPORT. What each command does, said once: the operands, the five ways a command can end, and its frame. -/

namespace Sys2Proof.Machine

/-! ## Decoding -/

theorem decode_encode (i : Instr) : decode (encode i) = .ok i := by cases i <;> rfl

theorem fullMask_holds (i : Instr) (p w : Word) : OpcodeRow.holds ⟨i, p, 0xFFFFFFFF⟩ w = (w == p) :=
  congrArg (· == p) BitVec.and_allOnes

/-- The decoder as R59 writes it. -/
theorem decode_eq (w : Word) : decode w =
    if w = 0 then .ok .nop else if w = 1 then .ok .cksum else if w = 2 then .ok .encode
    else .error (rejectReason w) := by
  have rows : opcodeRows.find? (·.holds w) =
      if w = 0 then some ⟨.nop, 0, 0xFFFFFFFF⟩ else if w = 1 then some ⟨.cksum, 1, 0xFFFFFFFF⟩
      else if w = 2 then some ⟨.encode, 2, 0xFFFFFFFF⟩ else none := by
    simp only [opcodeRows, List.find?, fullMask_holds, beq_eq_decide]
    by_cases h0 : w = 0
    · simp [h0]
    · by_cases h1 : w = 1
      · simp [h1]
      · by_cases h2 : w = 2
        · simp [h2]
        · simp only [decide_eq_false h0, decide_eq_false h1, decide_eq_false h2, if_neg h0, if_neg h1, if_neg h2]
  unfold decode
  rw [rows]
  split_ifs <;> rfl

/-- A word outside the opcode map is rejected (R60). -/
theorem decode_illegal {w : Word} (h0 : w ≠ 0) (h1 : w ≠ 1) (h2 : w ≠ 2) :
    decode w = .error (rejectReason w) := by
  rw [decode_eq, if_neg h0, if_neg h1, if_neg h2]

/-! ## ENCODE's operands and header -/

/-- The header ENCODE packs in a state whose operands it accepts. -/
def headerOf (s : State) : Nat := packHeader s.build.srcAddr ⟨s.dest.toNat % 256, s.data.toNat % 256⟩

theorem rejectedOperands_dest {d x : Nat} (h : 256 ≤ d) : rejectedOperands d x = .error .rangeDest := if_pos h

theorem rejectedOperands_data {d x : Nat} (h : d < 256) (g : 256 ≤ x) :
    rejectedOperands d x = .error .rangeData :=
  (if_neg (Nat.not_le.mpr h)).trans (if_pos g)

theorem rejectedOperands_ok {d x : Nat} (h : d < 256) (g : x < 256) : rejectedOperands d x = .ok ⟨d, x⟩ :=
  (if_neg (Nat.not_le.mpr h)).trans (if_neg (Nat.not_le.mpr g))

theorem encodeOperands_of_runs {s : State} (h : encodeRuns s) :
    encodeOperands s = .ok ⟨s.dest.toNat % 256, s.data.toNat % 256⟩ := by
  cases p : s.build.rangePolicy with
  | mask => simp only [encodeOperands, p]; rfl
  | reject =>
    obtain ⟨hd, hx⟩ := h.resolve_left (by simp [p])
    simp only [encodeOperands, p, rejectedOperands_ok hd hx, Nat.mod_eq_of_lt hd, Nat.mod_eq_of_lt hx]

/-- The header as a sum of its fields (R62): on fields that fit, `|` is `+`. -/
theorem packHeader_eq (src : BitVec 8) {dst dat : Nat} (hd : dst < 256) (hx : dat < 256) :
    packHeader src ⟨dst, dat⟩ = 2 ^ 24 + src.toNat * 2 ^ 16 + dst * 2 ^ 8 + dat := by
  have hs : src.toNat < 2 ^ 8 := src.isLt
  have a : (1 <<< 24) ||| (src.toNat <<< 16) = 2 ^ 24 + src.toNat * 2 ^ 16 := by
    rw [← Nat.shiftLeft_add_eq_or_of_lt (by rw [Nat.shiftLeft_eq]; omega), Nat.shiftLeft_eq, Nat.shiftLeft_eq]; omega
  have b : (2 ^ 24 + src.toNat * 2 ^ 16) ||| (dst <<< 8) = 2 ^ 24 + src.toNat * 2 ^ 16 + dst * 2 ^ 8 := by
    have : 2 ^ 24 + src.toNat * 2 ^ 16 = (2 ^ 8 + src.toNat) <<< 16 := by rw [Nat.shiftLeft_eq]; omega
    rw [this, ← Nat.shiftLeft_add_eq_or_of_lt (by rw [Nat.shiftLeft_eq]; omega), Nat.shiftLeft_eq dst]
  have c : (2 ^ 24 + src.toNat * 2 ^ 16 + dst * 2 ^ 8) ||| dat
      = 2 ^ 24 + src.toNat * 2 ^ 16 + dst * 2 ^ 8 + dat := by
    have : 2 ^ 24 + src.toNat * 2 ^ 16 + dst * 2 ^ 8 = (2 ^ 16 + src.toNat * 2 ^ 8 + dst) <<< 8 := by
      rw [Nat.shiftLeft_eq]; omega
    rw [this, ← Nat.shiftLeft_add_eq_or_of_lt (by omega)]
  calc packHeader src ⟨dst, dat⟩ = ((1 <<< 24 ||| src.toNat <<< 16) ||| dst <<< 8) ||| dat := rfl
    _ = _ := by rw [a, b, c]

/-! ## The commands -/

@[simp] theorem exec_nop (s : State) : exec .nop s = .next s := rfl

theorem exec_cksum_zero {s : State} (h : s.ckIn.toNat = 0) :
    exec .cksum s = .next (s.raiseError (encode .cksum) .degenerate) := if_pos h

theorem exec_cksum_pos {s : State} (h : s.ckIn.toNat ≠ 0) :
    exec .cksum s = .next ((s.withEngine (engine s.ckIn.toNat)).succeed (encode .cksum)) := if_neg h

theorem exec_encode_of_runs {s : State} (h : encodeRuns s) : exec .encode s = .next (s.withEncoding (headerOf s)) := by
  simp only [exec, execEncode, encodeOperands_of_runs h]; rfl

theorem exec_encode_dest {s : State} (p : s.build.rangePolicy = .reject) (h : 256 ≤ s.dest.toNat) :
    exec .encode s = .next (s.raiseError (encode .encode) .rangeDest) := by
  simp only [exec, execEncode, encodeOperands, p, rejectedOperands_dest h]

theorem exec_encode_data {s : State} (p : s.build.rangePolicy = .reject) (h : s.dest.toNat < 256)
    (g : 256 ≤ s.data.toNat) : exec .encode s = .next (s.raiseError (encode .encode) .rangeData) := by
  simp only [exec, execEncode, encodeOperands, p, rejectedOperands_data h g]

/-- The three ways ENCODE can go, by its operands and the build alone (R85, R86). -/
theorem encode_operand_cases (s : State) :
    encodeRuns s ∨ (s.build.rangePolicy = .reject ∧ 256 ≤ s.dest.toNat) ∨
      (s.build.rangePolicy = .reject ∧ s.dest.toNat < 256 ∧ 256 ≤ s.data.toNat) := by
  unfold encodeRuns
  cases s.build.rangePolicy <;> simp
  omega

/-- Every way a command can end (R100, R80, R89): its next state, and when it ends so. -/
inductive CommandEnd (s : State) : Instr → State → Prop where
  | nop : CommandEnd s .nop s
  | degenerate (h : s.ckIn.toNat = 0) : CommandEnd s .cksum (s.raiseError (encode .cksum) .degenerate)
  | cksum (h : s.ckIn.toNat ≠ 0) :
      CommandEnd s .cksum ((s.withEngine (engine s.ckIn.toNat)).succeed (encode .cksum))
  | rangeDest (p : s.build.rangePolicy = .reject) (h : 256 ≤ s.dest.toNat) :
      CommandEnd s .encode (s.raiseError (encode .encode) .rangeDest)
  | rangeData (p : s.build.rangePolicy = .reject) (h : s.dest.toNat < 256) (g : 256 ≤ s.data.toNat) :
      CommandEnd s .encode (s.raiseError (encode .encode) .rangeData)
  | encode (h : encodeRuns s) : CommandEnd s .encode (s.withEncoding (headerOf s))

/-- A command always ends in a next state, in one of these ways. -/
theorem exec_ends (i : Instr) (s : State) : ∃ t, exec i s = .next t ∧ CommandEnd s i t := by
  cases i with
  | nop => exact ⟨_, rfl, .nop⟩
  | cksum =>
    by_cases h : s.ckIn.toNat = 0
    · exact ⟨_, exec_cksum_zero h, .degenerate h⟩
    · exact ⟨_, exec_cksum_pos h, .cksum h⟩
  | encode =>
    rcases encode_operand_cases s with h | ⟨p, h⟩ | ⟨p, h, g⟩
    · exact ⟨_, exec_encode_of_runs h, .encode h⟩
    · exact ⟨_, exec_encode_dest p h, .rangeDest p h⟩
    · exact ⟨_, exec_encode_data p h g, .rangeData p h g⟩

/-- The inversion lemma of exec. -/
theorem exec_cases {i : Instr} {s t : State} (h : exec i s = .next t) : CommandEnd s i t := by
  obtain ⟨u, hu, end_⟩ := exec_ends i s
  rw [hu] at h
  cases h
  exact end_

end Sys2Proof.Machine
end

