-- ==== Sys2Proof/Laws/Bus.lean ====
section
/-! SUPPORT. What a host transaction does, said once (R43 to R45, R99, R41). -/

namespace Sys2Proof.Machine

theorem accept_iff (off : BitVec 8) (size : Size) :
    accept off size = true ↔ size = .four ∧ off.toNat % 4 = 0 ∧ off.toNat ≤ 0x30 := by
  cases size <;> simp [accept, Size.bytes]

@[simp] theorem regAt_offset (r : Reg) : regAt r.offset = some r := by cases r <;> rfl

theorem accept_offset (r : Reg) : accept r.offset .four = true := by cases r <;> rfl

/-- Every offset an accepted transaction has is a register's (R50). -/
theorem exists_reg_of_accept : ∀ (off : BitVec 8) (size : Size), accept off size = true → ∃ r : Reg, off = r.offset := by
  have all : ∀ off : BitVec 8, accept off .four = true → (Reg.all.any fun r => off == r.offset) = true := by decide
  intro off size h
  have four := ((accept_iff off size).mp h).1
  subst four
  obtain ⟨r, -, hr⟩ := List.any_eq_true.mp (all off h)
  exact ⟨r, by simpa using hr⟩

theorem performTransaction_refused {x : Transaction} (s : State) (h : accept x.off x.size = false) :
    performTransaction x s = .next (s.withResponse accessError) := by simp [performTransaction, h]

theorem performTransaction_read (s : State) (r : Reg) :
    performTransaction ⟨.read, r.offset, .four⟩ s = .next (s.withResponse (readOkay (readReg s r))) := by
  simp [performTransaction, accept_offset, readResponse]

theorem performTransaction_write (s : State) (r : Reg) (v : Word) :
    performTransaction ⟨.write v, r.offset, .four⟩ s = respond writeOkay (writeReg v s r) := by
  simp [performTransaction, accept_offset]

theorem performCommand_encode (i : Instr) (s : State) : performCommand (encode i) s = exec i s := by
  simp [performCommand, decode_encode]

theorem performCommand_illegal {w : Word} (s : State) (h0 : w ≠ 0) (h1 : w ≠ 1) (h2 : w ≠ 2) :
    performCommand w s = .next (s.raiseError w .illegalCommand) := by
  simp [performCommand, decode_illegal h0 h1 h2, illegalCommand]

/-- Every way a CMD write can end: a command of the table, or ILLEGAL_COMMAND (R99). -/
inductive CmdEnd (s : State) (w : Word) : State → Prop where
  | command (i : Instr) (hw : w = encode i) {t : State} (h : CommandEnd s i t) : CmdEnd s w t
  | illegal (h0 : w ≠ 0) (h1 : w ≠ 1) (h2 : w ≠ 2) : CmdEnd s w (s.raiseError w .illegalCommand)

theorem performCommand_ends (w : Word) (s : State) : ∃ t, performCommand w s = .next t ∧ CmdEnd s w t := by
  by_cases h : ∃ i, w = encode i
  · obtain ⟨i, rfl⟩ := h
    obtain ⟨t, ht, e⟩ := exec_ends i s
    exact ⟨t, by rw [performCommand_encode, ht], .command i rfl e⟩
  · have h0 : w ≠ 0 := fun e => h ⟨.nop, e⟩
    have h1 : w ≠ 1 := fun e => h ⟨.cksum, e⟩
    have h2 : w ≠ 2 := fun e => h ⟨.encode, e⟩
    exact ⟨_, performCommand_illegal s h0 h1 h2, .illegal h0 h1 h2⟩

/-- Every way an accepted WRITE of a register can end (R45). -/
inductive WriteEnd (s : State) (v : Word) : Reg → State → Prop where
  | dest : WriteEnd s v .dest (s.withDest v)
  | data : WriteEnd s v .data (s.withData v)
  | ckIn : WriteEnd s v .ckIn (s.withCkIn v)
  | cmd {t : State} (h : CmdEnd s v t) : WriteEnd s v .cmd t
  | ignored {r : Reg} (h : r ∉ [Reg.dest, .data, .ckIn, .cmd]) : WriteEnd s v r s

theorem writeReg_ends (v : Word) (s : State) (r : Reg) : ∃ t, writeReg v s r = .next t ∧ WriteEnd s v r t := by
  cases r
  case cmd => obtain ⟨t, ht, e⟩ := performCommand_ends v s; exact ⟨t, ht, .cmd e⟩
  case dest => exact ⟨_, rfl, .dest⟩
  case data => exact ⟨_, rfl, .data⟩
  case ckIn => exact ⟨_, rfl, .ckIn⟩
  all_goals exact ⟨_, rfl, .ignored (by decide)⟩

/-- Every way a transaction can end (R43 to R45). -/
inductive TransactionEnd (s : State) (x : Transaction) : State → Prop where
  | refused (h : accept x.off x.size = false) : TransactionEnd s x (s.withResponse accessError)
  | read (r : Reg) (h : x = ⟨.read, r.offset, .four⟩) : TransactionEnd s x (s.withResponse (readOkay (readReg s r)))
  | write (r : Reg) (v : Word) (h : x = ⟨.write v, r.offset, .four⟩) {t : State} (e : WriteEnd s v r t) :
      TransactionEnd s x (t.withResponse writeOkay)

/-- A transaction always ends in a next state, in one of these ways. -/
theorem performTransaction_ends (x : Transaction) (s : State) :
    ∃ t, performTransaction x s = .next t ∧ TransactionEnd s x t := by
  cases h : accept x.off x.size with
  | false => exact ⟨_, performTransaction_refused s h, .refused h⟩
  | true =>
    obtain ⟨kind, off, size⟩ := x
    obtain ⟨r, rfl⟩ := exists_reg_of_accept off size h
    obtain rfl := ((accept_iff _ size).mp h).1
    cases kind with
    | read => exact ⟨_, performTransaction_read s r, .read r rfl⟩
    | write v =>
      obtain ⟨t, ht, e⟩ := writeReg_ends v s r
      exact ⟨_, by rw [performTransaction_write, ht]; rfl, .write r v rfl e⟩

theorem performTransaction_cases {x : Transaction} {s t : State} (h : performTransaction x s = .next t) :
    TransactionEnd s x t := by
  obtain ⟨u, hu, e⟩ := performTransaction_ends x s
  rw [hu] at h
  cases h
  exact e

theorem windowOffset_inside (base : Nat) (off : BitVec 8) : windowOffset base (base + off.toNat) = some off := by
  have := off.isLt
  rw [windowOffset, if_pos ⟨by omega, by unfold windowSize; omega⟩]
  simp

theorem windowOffset_outside {base addr : Nat} (h : addr < base ∨ base + windowSize ≤ addr) :
    windowOffset base addr = none := if_neg (by omega)

end Sys2Proof.Machine
end

