-- ==== Sys2Proof/Laws/Decode.lean ====
section
/-! SUPPORT. Byte lanes: a word is its four lanes, and the lanes of a word made from bytes are those bytes (R46). -/

namespace Sys2Proof

theorem wordOfLanes_toNat (b0 b1 b2 b3 : Byte) :
    (wordOfLanes b0 b1 b2 b3).toNat = b0.toNat + b1.toNat * 2 ^ 8 + b2.toNat * 2 ^ 16 + b3.toNat * 2 ^ 24 := by
  have h0 := b0.isLt
  have h1 := b1.isLt
  have h2 := b2.isLt
  simp only [wordOfLanes, BitVec.toNat_append]
  rw [← Nat.shiftLeft_add_eq_or_of_lt h2, ← Nat.shiftLeft_add_eq_or_of_lt h1, ← Nat.shiftLeft_add_eq_or_of_lt h0]
  simp only [Nat.shiftLeft_eq]
  omega

theorem laneOf_toNat (w : Word) (i : Nat) : (laneOf w i).toNat = w.toNat / 2 ^ (8 * i) % 2 ^ 8 := by
  rw [laneOf, BitVec.extractLsb'_toNat, Nat.shiftRight_eq_div_pow]

/-- A word is what its four lanes make. -/
theorem wordOfLanes_laneOf (w : Word) :
    wordOfLanes (laneOf w 0) (laneOf w 1) (laneOf w 2) (laneOf w 3) = w := by
  apply BitVec.eq_of_toNat_eq
  simp only [wordOfLanes_toNat, laneOf_toNat]
  have := w.isLt
  omega

/-- Each lane of a word made from bytes is its byte. -/
theorem laneOf_wordOfLanes (b0 b1 b2 b3 : Byte) :
    laneOf (wordOfLanes b0 b1 b2 b3) 0 = b0 ∧ laneOf (wordOfLanes b0 b1 b2 b3) 1 = b1 ∧
      laneOf (wordOfLanes b0 b1 b2 b3) 2 = b2 ∧ laneOf (wordOfLanes b0 b1 b2 b3) 3 = b3 := by
  have h0 := b0.isLt
  have h1 := b1.isLt
  have h2 := b2.isLt
  have h3 := b3.isLt
  refine ⟨?_, ?_, ?_, ?_⟩ <;> apply BitVec.eq_of_toNat_eq <;> rw [laneOf_toNat, wordOfLanes_toNat] <;> omega

end Sys2Proof
end

