-- ==== Sys2Proof/Laws/PerInstr.lean ====
section
/-! SUPPORT. Facts about every command as syntax, one lemma per constructor. -/

namespace Sys2Proof.Laws.LegalWord

/-- The command's word is a legal one, with RSVD 0, and its byte lanes put together are the word (R58, R46). -/
def Statement (i : Instr) : Prop :=
  legalCommandWord (encode i) = true ∧ cmdRsvd (encode i) = 0 ∧
  wordOfLanes (laneOf (encode i) 0) (laneOf (encode i) 1) (laneOf (encode i) 2) (laneOf (encode i) 3) = encode i

theorem nop : Statement .nop := ⟨rfl, rfl, rfl⟩

theorem cksum : Statement .cksum := ⟨rfl, rfl, rfl⟩

theorem encode : Statement .encode := ⟨rfl, rfl, rfl⟩

end Sys2Proof.Laws.LegalWord
end

