-- ==== Sys2Proof/Laws/Step.lean ====
section
/-! SUPPORT. What a step does, said once: every way an event, and so a step, can reach a next state. -/

namespace Sys2Proof.Machine

theorem step_idle {s : State} (h : s.pending = []) : step s = .next s := by simp [step, h]

theorem step_event {s : State} {e : Event} {rest : List Event} (h : s.pending = e :: rest) :
    step s = performEvent e (s.withPending rest) := by simp [step, h]

/-- Every way an event can reach a next state; the refused events reach none. -/
inductive EventEnd (s : State) : Event → State → Prop where
  | transaction (x : Transaction) {t : State} (e : TransactionEnd s x t) : EventEnd s (.transaction x) t
  | inside (addr : Nat) (kind : Access) (size : Size) (off : BitVec 8) (h : windowOffset s.baseAddr addr = some off)
      {t : State} (e : TransactionEnd s ⟨kind, off, size⟩ t) : EventEnd s (.systemAccess addr kind size) t
  | outside (addr : Nat) (kind : Access) (size : Size) (h : windowOffset s.baseAddr addr = none) :
      EventEnd s (.systemAccess addr kind size) s
  | reset : EventEnd s .reset s.blockReset
  | handOver (h : s.wireLeft = []) (g : s.frameWidth ≠ 0) :
      EventEnd s .handOver (s.withEmission (emission (frameValue s) s.frameWidth.toNat))
  | wireIdle (h : s.wireLeft = []) : EventEnd s .wireTick s
  | wireTick (e : WireEvent) (l : List WireEvent) (h : s.wireLeft = e :: l) :
      EventEnd s .wireTick (s.withEmitted e l)

theorem performEvent_cases {e : Event} {s t : State} (h : performEvent e s = .next t) : EventEnd s e t := by
  cases e with
  | transaction x => exact .transaction x (performTransaction_cases h)
  | systemAccess addr kind size =>
    simp only [performEvent, performSystemAccess] at h
    split at h
    case h_1 off ho => exact .inside addr kind size off ho (performTransaction_cases h)
    case h_2 ho => cases h; exact .outside addr kind size ho
  | reset => cases h; exact .reset
  | handOver =>
    simp only [performEvent, performHandOver] at h
    split at h
    · cases h
    · split at h
      · cases h
      · cases h; exact .handOver (not_not.mp ‹_›) ‹_›
  | wireTick =>
    simp only [performEvent, performWireTick] at h
    split at h
    case h_1 hl => cases h; exact .wireIdle hl
    case h_2 e l hl => cases h; exact .wireTick e l hl
  | secondMaster x => cases h
  | overlap x y => cases h

/-- The inversion lemma of step: nothing was pending and nothing changed, or the first event was performed. -/
theorem step_cases {s t : State} (h : step s = .next t) :
    (s.pending = [] ∧ t = s) ∨ ∃ e rest, s.pending = e :: rest ∧ EventEnd (s.withPending rest) e t := by
  cases hp : s.pending with
  | nil => rw [step_idle hp] at h; cases h; exact .inl ⟨rfl, rfl⟩
  | cons e rest => exact .inr ⟨e, rest, rfl, performEvent_cases (step_event hp ▸ h)⟩

/-- A run of one more step begins with that step. -/
theorem run_step {s t : State} (n : Nat) (h : step s = .next t) :
    Sys2Proof.core.run (n + 1) s = Sys2Proof.core.run n t := by
  simp only [Host.Core.run]
  rw [show Sys2Proof.core.step s = .next t from h]

/-- Holds at the start and kept by every step, so held after any number of steps. -/
theorem run_keeps {P : State → Prop} (keep : ∀ s t, P s → step s = .next t → P t) :
    ∀ n s t, P s → Sys2Proof.core.run n s = .next t → P t := by
  intro n
  induction n with
  | zero => intro s t hs h; cases h; exact hs
  | succ n ih =>
    intro s t hs h
    simp only [Host.Core.run] at h
    split at h
    · exact ih _ t (keep s _ hs ‹_›) h
    · cases h
    · cases h

end Sys2Proof.Machine
end

