-- ==== Sys2Proof/Laws/Wire.lean ====
section
/-! SUPPORT. The event list of an emission, unfolded once (R105 to R109). -/

namespace Sys2Proof.Machine

@[simp] theorem bit_emit (b : Bool) : (WireEvent.emit b).bit = some b := rfl
@[simp] theorem bit_wait (n : Nat) : (WireEvent.wait n).bit = none := rfl
@[simp] theorem units_emit (b : Bool) : (WireEvent.emit b).units = 0 := rfl
@[simp] theorem units_wait (n : Nat) : (WireEvent.wait n).units = n := rfl

@[simp] theorem runEvents_zero (frame : Nat) : runEvents frame 0 = [] := rfl

@[simp] theorem runEvents_succ (frame n : Nat) :
    runEvents frame (n + 1) = .emit (frame.testBit n) :: .wait 1 :: runEvents frame n := rfl

/-- An emission is five runs with four pauses between them. -/
theorem emission_eq (frame fw : Nat) :
    emission frame fw =
      runEvents frame fw ++ .wait 10 :: (runEvents frame fw ++ .wait 10 :: (runEvents frame fw ++
        .wait 10 :: (runEvents frame fw ++ .wait 10 :: runEvents frame fw))) := rfl

theorem durationT_append (l m : List WireEvent) : durationT (l ++ m) = durationT l + durationT m := by
  simp [durationT]

theorem durationT_cons (e : WireEvent) (l : List WireEvent) : durationT (e :: l) = e.units + durationT l := by
  simp [durationT]

end Sys2Proof.Machine
end

