-- ==== Sys2Proof/Tests/Slice0.lean ====
section
/-! SUPPORT. The model's own tests (expected values from spec/ alone, each test names the place) and, for every statement
with hypotheses, a witness: concrete states and operands that meet them together, one per clause at the ends of its range. -/

open Sys2Proof Sys2Proof.Machine

namespace Sys2Proof.Tests

/-! ## Helpers -/

/-- A block of a build right after reset, its window at 0x1000, with these events to come. -/
def start (b : Build) (events : List Event) : State := (State.resetOf b 0x1000).withPending events

/-- A block whose operand registers hold these values. -/
def holding (b : Build) (dest data ckIn : Word) : State :=
  (((start b []).withDest dest).withData data).withCkIn ckIn

/-- The next state of an answer, if it is one. -/
def nextOf : Result → Option State
  | .next s    => some s
  | .fault _   => none
  | .refused _ => none

def refusalOf : Result → Option Refusal
  | .refused r => some r
  | .next _    => none
  | .fault _   => none

/-- The registers STATUS, HEADER, CKSUM, SUM, CKINFO, FRAME_LO, FRAME_HI and FRAME_WIDTH. -/
def results (s : State) : List Word :=
  [s.status, s.header, s.cksum, s.sum, s.ckInfo, s.frameLo, s.frameHi, s.frameWidth]

/-- A host write of a register, and a host read of one. -/
def wr (r : Reg) (v : Word) : Event := .transaction (writeTo r v)
def rd (r : Reg) : Event := .transaction (readOf r)

def mask8 : Build := ⟨1, .actual, .mask⟩
def nominal : Build := ⟨1, .nominal, .reject⟩
def natural : Build := ⟨1, .natural, .reject⟩

/-! ## Well-formedness: an ill-formed term for each check, refused -/

theorem test_wf_commands : Instr.wf .nop = true ∧ Instr.wf .cksum = true ∧ Instr.wf .encode = true := by decide

/-- RSVD not 0 (R60, 0x00000011 is its example), and OP of 3. -/
theorem test_wf_refuses_illegal_words :
    legalCommandWord 0x11 = false ∧ legalCommandWord 0x3 = false ∧ legalCommandWord 0x2 = true := by decide

/-- A one-byte write of 256, a two-byte write of 65536 (R42). -/
theorem test_wf_refuses_wide_wdata :
    Transaction.wf ⟨.write 0x100, 0x04, .one⟩ = false ∧ Transaction.wf ⟨.write 0x10000, 0x04, .two⟩ = false ∧
    Transaction.wf ⟨.write 0xFF, 0x04, .one⟩ = true ∧ Transaction.wf ⟨.read, 0xFF, .one⟩ = true := by decide

/-- SRC_ADDR of 256 (R7), CW_POLICY code 3 (R9, D23), and RANGE_POLICY code 2, on which R8 is silent (log entry 1). -/
theorem test_wf_refuses_builds :
    legalBuild 256 0 0 = false ∧ legalBuild 1 3 0 = false ∧ legalBuild 1 0 2 = false ∧ legalBuild 255 2 1 = true ∧
    elaborateBuild 256 0 0 = none ∧ elaborateBuild 1 3 0 = none ∧ elaborateBuild 1 0 2 = none ∧
    elaborateBuild 255 2 1 = some ⟨255, .natural, .mask⟩ := by decide

/-! ## Decoding: words written out from R59 -/

theorem test_decode_nop : decode 0b00000000000000000000000000000000#32 = .ok .nop := rfl
theorem test_decode_cksum : decode 0b00000000000000000000000000000001#32 = .ok .cksum := rfl
theorem test_decode_encode : decode 0b00000000000000000000000000000010#32 = .ok .encode := rfl

/-- V-CM-04 and V-CM-06 to V-CM-09: illegal, and never the meaning of OP. -/
theorem test_decode_illegal :
    decode 0x00000003 = .error (.reservedOp 3) ∧ decode 0x00000010 = .error (.reservedBits 1) ∧
    decode 0x00000011 = .error (.reservedBits 1) ∧ decode 0x00000012 = .error (.reservedBits 1) ∧
    decode 0x80000002 = .error (.reservedBits 0x8000000) := ⟨rfl, rfl, rfl, rfl, rfl⟩

/-- No two rows of the opcode map overlap: somewhere both masks are set and the matches differ. -/
theorem test_rows_disjoint :
    opcodeRows.Pairwise fun a b => a.pattern &&& (a.mask &&& b.mask) ≠ b.pattern &&& (a.mask &&& b.mask) := by decide

/-- Lane 0 carries bits 7:0 (R46): ENCODE's bytes are 2, 0, 0, 0, and what follows is left. -/
theorem test_decode_bytes :
    encodeBytes .encode = [2, 0, 0, 0] ∧ decodeBytes [2, 0, 0, 0, 9] = .ok (.encode, [9]) ∧
    decodeBytes [0, 0, 0, 2] = .error (.reservedBits 0x200000) ∧ decodeBytes [1, 0] = .error .truncated :=
  ⟨rfl, rfl, rfl, rfl⟩

/-- Table words: 32 bits as the table has them; a shorter width has zeros above; a longer value is no word (R67). -/
theorem test_decode_table_word :
    decodeTableWord 32 0 = some .nop ∧ decodeTableWord 32 1 = some .cksum ∧ decodeTableWord 32 2 = some .encode ∧
    decodeTableWord 32 0x11 = none ∧ decodeTableWord 8 0x102 = some .encode ∧ decodeTableWord 64 (2 ^ 32 + 1) = none :=
  ⟨rfl, rfl, rfl, rfl, rfl, rfl⟩

/-- The word placed by withFetchWord is what the next step runs, whatever else is pending. -/
theorem test_fetch_word_runs :
    (nextOf (step ((holding .default 5 3 0).withFetchWord 32 2))).map (·.frameLo) = some 0x808281E6 := by decide

/-! ## Commands, one step each -/

/-- R100's example. -/
theorem test_nop_keeps_status :
    (nextOf (exec .nop ((start .default []).withStatus 0x201))).map (·.status) = some 0x201 := by decide

/-- V-CK-23: the sum carries above k. -/
theorem test_cksum_carries :
    (nextOf (exec .cksum (holding .default 0 0 0xDEADBEEF))).map results =
      some [0x101, 0, 0x3C7, 824, 0x0020080A, 0, 0, 0] := by decide

/-- V-CK-01: CK_IN = 0 writes STATUS only. -/
theorem test_cksum_degenerate :
    (nextOf (exec .cksum (holding .default 0 0 0))).map results = some [0x132, 0, 0, 0, 0, 0, 0, 0] := by decide

/-- V-EN-03: a 34-bit frame, FRAME_HI used, dst and dat at the top of their range. -/
theorem test_encode_widest :
    (nextOf (exec .encode (holding .default 0xFF 0xFF 0))).map results =
      some [0x201, 0x0101FFFF, 0x172, 269, 0x00190709, 0x03FFFF72, 2, 34] := by decide

/-- V-RG-04: both operands out of range, DEST is reported, STATUS alone written. -/
theorem test_encode_range_dest_first :
    (nextOf (exec .encode (holding .default 0x100 0x100 0))).map results = some [0x212, 0, 0, 0, 0, 0, 0, 0] := by
  decide

/-! ## The other policies -/

/-- V-RG-08: MASK; DEST and DATA keep their values (R86). -/
theorem test_encode_mask :
    (nextOf (exec .encode (holding mask8 0xFFFFFFFF 0x100 0))).map
        (fun s => (s.header, s.frameLo, s.frameHi, s.frameWidth, s.dest, s.data)) =
      some (0x0101FF00, 0x01FF00F2, 1, 33, 0xFFFFFFFF, 0x100) := by decide

/-- V-EN-06 under NOMINAL: CKSUM keeps the whole checksum, the frame its low 6 bits. -/
theorem test_encode_nominal :
    (nextOf (exec .encode (holding nominal 0x80 0x7F 0))).map (fun s => (s.cksum, s.frameLo, s.frameHi, s.frameWidth)) =
      some (0xF2, 0x40601FF2, 0, 31) := by decide

/-- V-EN-05 under NATURAL: two leading zero bits of ck are not in the frame. -/
theorem test_encode_natural :
    (nextOf (exec .encode (holding natural 0x12 0x34 0))).map (fun s => (s.cksum, s.frameLo, s.frameHi, s.frameWidth)) =
      some (0x1B, 0x2022469B, 0, 30) := by decide

/-! ## Host access and events, one step each -/

/-- V-CM-05: an illegal word through the bus; the response is OKAY. -/
theorem test_illegal_word :
    (nextOf (step (start .default [wr .cmd 0xF]))).map (fun s => (s.status, s.responses)) =
      some (0xF42, [⟨.okay, none⟩]) := by decide

/-- V-AC-08: a one-byte write at CMD runs nothing. -/
theorem test_subword_command :
    (nextOf (step (start .default [.transaction ⟨.write 2, 0x04, .one⟩]))).map (fun s => (results s, s.responses)) =
      some ([0, 0, 0, 0, 0, 0, 0, 0], [⟨.error, some 0⟩]) := by decide

/-- V-AC-01, V-AC-09, V-AC-11: CONFIG reads the build, 0x34 is refused, 0x30 is the last register. -/
theorem test_reads :
    (nextOf (step (start .default [rd .config]))).map (·.responses) = some [⟨.okay, some 0x00080801⟩] ∧
    (nextOf (step (start .default [.transaction ⟨.read, 0x34, .four⟩]))).map (·.responses) =
      some [⟨.error, some 0⟩] ∧
    (nextOf (step (start .default [rd .frameWidth]))).map (·.responses) = some [⟨.okay, some 0⟩] := by decide

/-- P4's first line: CONFIG of the MASK and NOMINAL build. -/
theorem test_config_of_build : configWord ⟨1, .nominal, .mask⟩ = 0x05080801 := by decide

/-- R41: the last byte of the window is the block's, the next one is not. -/
theorem test_window :
    (nextOf (step (start .default [.systemAccess 0x10FF .read .four]))).map (·.responses) = some [⟨.error, some 0⟩] ∧
    (nextOf (step (start .default [.systemAccess 0x1100 .read .four]))).map (·.responses) = some [] ∧
    (nextOf (step (start .default [.systemAccess 0x1004 (.write 1) .four]))).map (·.status) = some 0x132 := by decide

/-- R127, R133, I10. -/
theorem test_refusals :
    refusalOf (step (start .default [.secondMaster ⟨.read, 0, .four⟩])) = some .secondMaster ∧
    refusalOf (step (start .default [.overlap ⟨.read, 0, .four⟩ ⟨.read, 4, .four⟩])) = some .twoOutstanding ∧
    refusalOf (step ((start .default [.handOver]).withEmission [.wait 1])) = some .emissionInProgress := by decide

/-- R129: reset clears what a command left. -/
theorem test_reset :
    (nextOf (step { holding .default 5 3 7 with status := 0x201, frameLo := 9, pending := [.reset] })).map
        (fun s => (results s, s.dest, s.data, s.ckIn)) = some ([0, 0, 0, 0, 0, 0, 0, 0], 0, 0, 0) := by decide

/-- 95_test_vectors.md section 2.6: the event list of the 2-bit frame 0b10, and its 50 T. -/
theorem test_emission :
    emission 0b10 2 =
      [.emit true, .wait 1, .emit false, .wait 1, .wait 10, .emit true, .wait 1, .emit false, .wait 1, .wait 10,
       .emit true, .wait 1, .emit false, .wait 1, .wait 10, .emit true, .wait 1, .emit false, .wait 1, .wait 10,
       .emit true, .wait 1, .emit false, .wait 1] ∧ durationT (emission 0b10 2) = 50 := by decide

/-- R69: the expansion of ENC, as the tuples of P1's first three lines. -/
theorem test_listing :
    listing [.enc 5 3] =
      [⟨.write 5, 0x0C, .four⟩, ⟨.write 3, 0x10, .four⟩, ⟨.write 2, 0x04, .four⟩] := by decide

/-! ## Witnesses: every statement's hypotheses are met -/

theorem witness_DecodeEncodeAgree :
    Instr.wf .nop = true ∧ Instr.wf .cksum = true ∧ Instr.wf .encode = true ∧ decode 2 = .ok .encode ∧
    decodeBytes [1, 0, 0, 0, 7] = .ok (.cksum, [7]) := ⟨rfl, rfl, rfl, rfl, rfl⟩

theorem witness_StepRunsDecodedCommand (i : Instr) :
    (start .default [wr .cmd (encode i), .reset]).pending =
      .transaction ⟨.write (encode i), 0x04, .four⟩ :: [.reset] ∧ decode (encode i) = .ok i := by
  cases i <;> exact ⟨rfl, rfl⟩

theorem witness_IdleStepChangesNothing : (start .default []).pending = [] := rfl

theorem witness_NopWritesNothing : (0x10 : Word).toNat % 16 = 0 ∧ (0x10 : Word).toNat / 16 ≠ 0 := by decide

theorem witness_CksumRunsEngineOnCkIn :
    (holding .default 0 0 0).ckIn.toNat = 0 ∧ 1 ≤ (holding .default 0 0 1).ckIn.toNat ∧
    1 ≤ (holding .default 0 0 0xFFFFFFFF).ckIn.toNat ∧ (holding .default 0 0 1).ckIn = 1 ∧
    (holding .default 0 0 0xFFFFFFFF).ckIn = 0xFFFFFFFF ∧ (holding .default 0 0 0x80000000).ckIn = 0x80000000 ∧
    (holding .default 0 0 0x01010503).ckIn = 0x01010503 ∧ bitlen 0x01010503 % 4 ≠ 0 := by decide

theorem witness_EncodeBuildsFrame :
    Build.default.rangePolicy = .reject ∧ 256 ≤ (holding .default 256 0 0).dest.toNat ∧
    (holding .default 255 256 0).dest.toNat < 256 ∧ 256 ≤ (holding .default 255 256 0).data.toNat ∧
    (holding .default 255 255 0).dest.toNat < 256 ∧ (holding .default 255 255 0).data.toNat < 256 ∧
    mask8.rangePolicy = .mask ∧ 5 = (holding mask8 0x105 0x103 0).dest.toNat % 256 ∧
    3 = (holding mask8 0x105 0x103 0).data.toNat % 256 ∧
    Build.default.srcAddr = 1 ∧ Build.default.cwPolicy = .actual ∧ natural.srcAddr = 1 ∧ natural.cwPolicy = .natural ∧
    (holding natural 0 115 0).dest = 0 ∧ (holding natural 0 115 0).data = 115 := by decide

theorem witness_EncodeRangeErrors :
    (holding .default 256 0 0).build.rangePolicy = .reject ∧ 256 ≤ (holding .default 256 0 0).dest.toNat ∧
    (holding .default 255 256 0).dest.toNat < 256 ∧ 256 ≤ (holding .default 255 256 0).data.toNat ∧
    (holding .default 255 255 0).dest.toNat < 256 ∧ (holding .default 255 255 0).data.toNat < 256 := by decide

theorem witness_MaskedEncodeUsesLowBytes :
    (holding mask8 0x105 0x103 0).build.rangePolicy = .mask ∧ (holding mask8 0x105 0x103 0).dest ≠ 0x05 := by decide

theorem witness_DegenerateOnlyFromCksumOfZero :
    (holding .default 0 0 0).ckIn = 0 ∧ (holding .default 0 0 1).ckIn ≠ 0 := by decide

theorem witness_CommandsWriteOnlyTheirRegisters :
    (∃ t, exec .nop (holding .default 5 3 7) = .next t) ∧ (∃ t, exec .cksum (holding .default 5 3 7) = .next t) ∧
    (∃ t, exec .cksum (holding .default 5 3 0) = .next t) ∧ (∃ t, exec .encode (holding .default 5 3 7) = .next t) ∧
    (∃ t, exec .encode (holding .default 256 3 7) = .next t) ∧
    Reg.header ∉ [Reg.cksum, .sum, .ckInfo, .status] :=
  ⟨⟨_, rfl⟩, ⟨_, rfl⟩, ⟨_, rfl⟩, ⟨_, rfl⟩, ⟨_, rfl⟩, by decide⟩

/-- Two states that agree on build and operands and differ elsewhere. -/
theorem witness_EncodeDependsOnOperandsAlone :
    let s := holding .default 255 255 7
    let s' := { holding .default 255 255 0 with cksum := 9, status := 0x101 }
    s ≠ s' ∧ s.build = s'.build ∧ s.dest = s'.dest ∧ s.data = s'.data ∧ encodeRuns s :=
  ⟨by decide, rfl, rfl, rfl, .inr (by decide)⟩

theorem witness_CksumDependsOnCkInAlone :
    let s := holding .default 5 3 1
    let s' := { holding .default 0 0 1 with cksum := 9, status := 0x101 }
    s ≠ s' ∧ s.ckIn = s'.ckIn ∧ s.ckIn ≠ 0 := by decide

theorem witness_ResultsDifferFromReset :
    (holding .default 0 0 1).ckIn ≠ 0 ∧ encodeRuns (holding .default 255 255 0) := ⟨by decide, .inr (by decide)⟩

theorem witness_BitlenIsLeastWidth : (5 : Nat) < 2 ^ 3 ∧ (0 : Nat) = 0 ∧ 1 ≤ 1 := by decide

theorem witness_SectionsAreBitRanges : bitlen 0x1FF ≤ 3 * ((bitlen 0x1FF + 3) / 4) := by decide

theorem witness_ChecksumComplementsLowBitsOnly : 1 ≤ 0x1FFFFFF ∧ 6 < (engine 0x1FFFFFF).k := by decide

theorem witness_OutputWidthCoversChecksum : 1 ≤ 1 ∧ (engine 1).ck < 2 ^ ((engine 1).cw - 1) := by decide

theorem witness_EngineBounds : 1 ≤ 1 ∧ 1 ≤ 0xFFFFFFFF ∧ 0xFFFFFFFF < 2 ^ 32 := by decide

/-- 0x01010503 has the sections 3, 10, 4, 8 (W1); 0x0101018A has the first two swapped. -/
theorem witness_SumIsRecoverable :
    (engine 0x01010503).k = (engine 0x0101018A).k ∧ (engine 0x01010503).s1 = (engine 0x0101018A).s2 ∧
    (engine 0x01010503).s2 = (engine 0x0101018A).s1 ∧ (engine 0x01010503).s3 = (engine 0x0101018A).s3 ∧
    (engine 0x01010503).s4 = (engine 0x0101018A).s4 := by decide

theorem witness_CksumRegistersLoseNoBit :
    1 ≤ (holding .default 0 0 1).ckIn.toNat ∧ 1 ≤ (holding .default 0 0 0xFFFFFFFF).ckIn.toNat := by decide

theorem witness_HeaderLayout : 0 < 256 ∧ 255 < 256 := by decide

theorem witness_FrameLayout :
    0 < 256 ∧ 115 < 256 ∧ (checksumField natural.cwPolicy (engine (packHeader natural.srcAddr ⟨0, 115⟩))).ffw = 0 := by
  decide

theorem witness_EncodeRanges : 0 < 256 ∧ 255 < 256 ∧ Build.default.srcAddr = 1 := by decide

theorem witness_FrameReproducesHeader :
    encodeRuns (holding .default 255 255 0) ∧ encodeRuns (holding mask8 0x105 0x103 0) := ⟨.inr (by decide), .inl rfl⟩

theorem witness_NominalFrameIs31Bits :
    (holding nominal 255 255 0).build.cwPolicy = .nominal ∧ encodeRuns (holding nominal 255 255 0) :=
  ⟨rfl, .inr (by decide)⟩

theorem witness_NaturalFrameWidths :
    (holding natural 255 255 0).build.cwPolicy = .natural ∧ encodeRuns (holding natural 255 255 0) :=
  ⟨rfl, .inr (by decide)⟩

/-- Under NOMINAL, and under ACTUAL with the widths of W4 that differ, 32 and 33. -/
theorem witness_SourceAddressMutation :
    (∀ p ∈ [CwPolicy.nominal, .actual],
      let s := holding ⟨1, p, .reject⟩ 0 0 0
      let s' := holding ⟨255, p, .reject⟩ 0 0 0
      s.build.srcAddr ≠ s'.build.srcAddr ∧ s.build.cwPolicy = s'.build.cwPolicy ∧
      s.build.rangePolicy = s'.build.rangePolicy ∧ s.dest = s'.dest ∧ s.data = s'.data ∧ s.dest.toNat < 256 ∧
      s.data.toNat < 256) ∧
    (holding ⟨1, .nominal, .reject⟩ 0 0 0).build.cwPolicy = .nominal ∧
    (holding ⟨1, .nominal, .reject⟩ 255 255 0).dest.toNat < 256 := by decide

theorem witness_IllegalWordIsRecorded (w : Word) (h : w ∈ [(3 : Word), 0x12, 0xFFFFFFFF]) :
    w ≠ 0 ∧ w ≠ 1 ∧ w ≠ 2 ∧
    (start .default [wr .cmd w]).pending = .transaction ⟨.write w, 0x04, .four⟩ :: [] := by
  refine ⟨?_, ?_, ?_, rfl⟩ <;> rintro rfl <;> revert h <;> decide

/-- The clauses of ErrorPriority: an illegal word, RANGE_DEST, RANGE_DATA, DEGENERATE, the two successes, NOP, and a
refused access. -/
theorem witness_ErrorPriority :
    (start .default [wr .cmd 3]).pending = .transaction ⟨.write 3, 0x04, .four⟩ :: [] ∧
    ((3 : Word) ≠ 0 ∧ (3 : Word) ≠ 1 ∧ (3 : Word) ≠ 2) ∧
    (holding .default 256 256 0).build.rangePolicy = .reject ∧ 256 ≤ (holding .default 256 256 0).dest.toNat ∧
    (holding .default 255 256 0).dest.toNat < 256 ∧ 256 ≤ (holding .default 255 256 0).data.toNat ∧
    (holding .default 0 0 0).ckIn = 0 ∧ encodeRuns (holding .default 255 255 0) ∧
    (holding .default 0 0 1).ckIn ≠ 0 ∧ Size.one ≠ .four ∧ Size.two ≠ .four ∧
    (start .default [.transaction ⟨.write 2, 0x04, .one⟩]).pending = .transaction ⟨.write 2, 0x04, .one⟩ :: [] :=
  ⟨rfl, by decide, rfl, by decide, by decide, by decide, rfl, .inr (by decide), by decide, by decide, by decide, rfl⟩

theorem witness_ErrorWritesStatusOnly :
    ∃ t, (start .default [wr .cmd 1]).pending = .transaction ⟨.write 1, 0x04, .four⟩ :: [] ∧ (1 : Word) ≠ 0 ∧
      step (start .default [wr .cmd 1]) = .next t ∧ statusErr t.status = true :=
  ⟨_, rfl, by decide, rfl, by decide⟩

theorem witness_SuccessRecord :
    ∃ t, (start .default [wr .cmd 2]).pending = .transaction ⟨.write 2, 0x04, .four⟩ :: [] ∧ (2 : Word) ≠ 0 ∧
      step (start .default [wr .cmd 2]) = .next t ∧ statusErr t.status = false :=
  ⟨_, rfl, by decide, rfl, by decide⟩

/-- The clauses of OnlyCommandsAndResetWriteResults: reset, an event that writes no command word, NOP, a command that
fails (by offset) and one that succeeds (by system address). -/
theorem witness_OnlyCommandsAndResetWriteResults :
    (∃ t, step (start .default [.reset]) = .next t) ∧
    (∃ t, step (start .default [rd .status]) = .next t) ∧ rd .status ≠ .reset ∧ cmdWordOf 0x1000 (rd .status) = none ∧
    (∃ t, step (start .default [wr .cmd 0]) = .next t) ∧ cmdWordOf 0x1000 (wr .cmd 0) = some 0 ∧
    (∃ t, step (start .default [wr .cmd 1]) = .next t ∧ statusErr t.status = true) ∧
    cmdWordOf 0x1000 (wr .cmd 1) = some 1 ∧
    (∃ t, step (start .default [.systemAccess 0x1004 (.write 2) .four]) = .next t ∧ statusErr t.status = false) ∧
    cmdWordOf 0x1000 (.systemAccess 0x1004 (.write 2) .four) = some 2 :=
  ⟨⟨_, rfl⟩, ⟨_, rfl⟩, by decide, by decide, ⟨_, rfl⟩, by decide, ⟨_, rfl, by decide⟩, by decide,
    ⟨_, rfl, by decide⟩, by decide⟩

/-- A transaction refused for its size, one for its alignment, one for its offset (V-AC-06, V-AC-07, V-AC-09). -/
theorem witness_UnacceptedAccessHasNoEffect :
    ∀ x ∈ [(⟨.read, 0x00, .two⟩ : Transaction), ⟨.read, 0x0A, .four⟩, ⟨.read, 0x34, .four⟩, ⟨.write 2, 0x04, .one⟩],
      (start .default [.transaction x]).pending = .transaction x :: [] ∧
      ¬ (x.size = .four ∧ x.off.toNat % 4 = 0 ∧ x.off.toNat ≤ 0x30) := by decide

theorem witness_ReadReturnsRegister :
    let s := start .default [rd .config]
    s.pending = .transaction ⟨.read, 0x00, .four⟩ :: [] ∧
    (start .default [rd .frameWidth]).pending = .transaction ⟨.read, 0x30, .four⟩ :: [] ∧
    (0x00#8, configWord s.build) ∈ [(0x00#8, configWord s.build), (0x30#8, s.frameWidth)] := by decide

/-- One write per clause: an operand register, CMD, and the first and the last read-only register. -/
theorem witness_WriteActsByRegister :
    (start .default [wr .dest 1]).pending = .transaction ⟨.write 1, 0x0C, .four⟩ :: [] ∧
    (start .default [wr .data 1]).pending = .transaction ⟨.write 1, 0x10, .four⟩ :: [] ∧
    (start .default [wr .ckIn 1]).pending = .transaction ⟨.write 1, 0x14, .four⟩ :: [] ∧
    (start .default [wr .cmd 1]).pending = .transaction ⟨.write 1, 0x04, .four⟩ :: [] ∧
    (start .default [wr .config 1]).pending = .transaction ⟨.write 1, 0x00, .four⟩ :: [] ∧
    (start .default [wr .frameWidth 1]).pending = .transaction ⟨.write 1, 0x30, .four⟩ :: [] ∧
    0x00#8 ∈ [0x00#8, 0x08#8, 0x18#8, 0x1C#8, 0x20#8, 0x24#8, 0x28#8, 0x2C#8, 0x30#8] ∧
    0x30#8 ∈ [0x00#8, 0x08#8, 0x18#8, 0x1C#8, 0x20#8, 0x24#8, 0x28#8, 0x2C#8, 0x30#8] := by decide

theorem witness_OperandReadsBackWritten :
    0x0C#8 ∈ [0x0C#8, 0x10#8, 0x14#8] ∧ 0x14#8 ∈ [0x0C#8, 0x10#8, 0x14#8] ∧
    (start .default [wr .dest 0xFFFFFFFF, rd .dest]).pending =
      .transaction ⟨.write 0xFFFFFFFF, 0x0C, .four⟩ :: .transaction ⟨.read, 0x0C, .four⟩ :: [] := by decide

theorem witness_OperandWriteKeepsResults :
    (∃ t, step (start .default [wr .data 0x35]) = .next t) ∧ 0x10#8 ∈ [0x0C#8, 0x10#8, 0x14#8] ∧
    (start .default [wr .data 0x35]).pending = .transaction ⟨.write 0x35, 0x10, .four⟩ :: [] ∧
    Reg.frameLo.offset ≠ 0x10#8 := ⟨⟨_, rfl⟩, by decide, rfl, by decide⟩

/-- The first and the last address of the window, and the two just outside it. -/
theorem witness_SystemAccessReachesWindowOnly :
    let s := start .default [.systemAccess 0x1000 .read .four]
    s.pending = .systemAccess 0x1000 .read .four :: [] ∧ 0x1000 = s.baseAddr + (0x00#8).toNat ∧
    0x10FF = s.baseAddr + (0xFF#8).toNat ∧ 0xFFF < s.baseAddr ∧ s.baseAddr + 0x100 ≤ 0x1100 := by decide

theorem witness_ModelRefusesSecondMasterAndOverlap :
    (start .default [.secondMaster ⟨.read, 0, .four⟩]).pending = .secondMaster ⟨.read, 0, .four⟩ :: [] ∧
    (start .default [.overlap ⟨.read, 0, .four⟩ ⟨.read, 4, .four⟩]).pending =
      .overlap ⟨.read, 0, .four⟩ ⟨.read, 4, .four⟩ :: [] := by decide

theorem witness_ConfigReportsBuild :
    (start .default [wr .config 0xFFFFFFFF]).pending = .transaction ⟨.write 0xFFFFFFFF, 0x00, .four⟩ :: [] ∧
    ∃ t, step (start .default [wr .config 0xFFFFFFFF]) = .next t := ⟨rfl, _, rfl⟩

theorem witness_NoStepChangesConfig : ∃ t, step (start mask8 [.reset]) = .next t := ⟨_, rfl⟩

theorem witness_NoStepChangesBaseAddr :
    ∃ t, step (start .default [.systemAccess 0x1004 (.write 2) .four]) = .next t := ⟨_, rfl⟩

theorem witness_ResetSetsEveryRegister :
    (start mask8 [.reset]).pending = .reset :: [] ∧ Reg.status ≠ .config := by decide

/-- Each clause at both ends: 255 and 256, 2 and 3, 1 and 2. -/
theorem witness_InvalidBuildsAreRefused :
    elaborateBuild 255 2 1 = some ⟨255, .natural, .mask⟩ ∧ elaborateBuild 256 2 1 = none ∧
    elaborateBuild 255 3 1 = none ∧ elaborateBuild 255 2 2 = none := by decide

theorem witness_EmissionCarriesFrameBits :
    encodeRuns (holding natural 0 115 0) ∧ encodeRuns (holding .default 255 255 0) := ⟨.inr (by decide), .inr (by decide)⟩

/-- A frame held, none held, and an emission in progress. -/
theorem witness_HandOverStartsEmission :
    let s := { start .default [.handOver] with frameLo := 0x808281E6, frameWidth := 32 }
    (s.pending = .handOver :: [] ∧ s.wireLeft = [] ∧ s.frameWidth ≠ 0) ∧
    (s.withEmission [.wait 1]).wireLeft ≠ [] ∧ (s.withEmission [.wait 1]).pending = .handOver :: [] ∧
    ((start .default [.handOver]).wireLeft = [] ∧ (start .default [.handOver]).frameWidth = 0) := by decide

theorem witness_WireSequenceIsKept :
    (∃ t, step ((start .default [.wireTick]).withEmission [.emit true, .wait 1]) = .next t) ∧
    (∀ rest, ((start .default [.wireTick]).withEmission [.emit true, .wait 1]).pending ≠ .handOver :: rest) ∧
    (∃ t, step { start .default [.handOver] with frameLo := 0x808281E6, frameWidth := 32 } = .next t) :=
  ⟨⟨_, rfl⟩, fun _ h => (by cases h), ⟨_, rfl⟩⟩

theorem witness_WireTickPerformsNextEvent :
    let s := (start .default [.wireTick]).withEmission [.emit true, .wait 1]
    s.pending = .wireTick :: [] ∧ s.wireLeft = .emit true :: [.wait 1] ∧ (start .default [.wireTick]).wireLeft = [] := by
  decide

/-- One frame bit is enough: 14 events. -/
theorem witness_EmissionRunsToCompletion :
    let s := { start .default (.handOver :: (List.replicate 14 .wireTick ++ [])) with frameLo := 1, frameWidth := 1 }
    s.wireLeft = [] ∧ s.frameWidth ≠ 0 ∧ (emission (frameValue s) s.frameWidth.toNat).length = 14 ∧
    s.pending = .handOver :: (List.replicate 14 .wireTick ++ []) :=
  ⟨rfl, by decide, by decide, rfl⟩

/-- The state W1 leaves: STATUS, HEADER, CKSUM, SUM, CKINFO and the frame of `ENC 5, 3`. -/
def afterW1 : State :=
  { holding .default 5 3 0 with
    status := 0x201, header := 0x01010503, cksum := 0x66, sum := 25, ckInfo := 0x00190707
    frameLo := 0x808281E6, frameHi := 0, frameWidth := 32 }

theorem afterW1_inv : Inv afterW1 where
  status_legal := .inr (.inr (.inl rfl))
  checksum_legal := .inr ⟨0x01010503, by decide, by decide, by unfold reportsEngine; decide⟩
  frame_legal := .inr ⟨⟨5, 3⟩, by decide, by decide, by unfold holdsFrame; decide⟩
  cksum_reported := by decide
  encode_reported := fun _ => ⟨by decide, by unfold reportsEngine; decide⟩
  wire_legal := .inl rfl

theorem witness_StepKeepsInv :
    Inv (afterW1.withPending [.reset]) ∧ ∃ t, step (afterW1.withPending [.reset]) = .next t :=
  ⟨⟨afterW1_inv.1, afterW1_inv.2, afterW1_inv.3, afterW1_inv.4, afterW1_inv.5, .inl rfl⟩, _, rfl⟩

theorem witness_EveryRunKeepsInv :
    ∃ t, Sys2Proof.core.run 2 ((State.resetOf .default 0x1000).withPending [wr .cmd 2, .handOver]) = .next t := ⟨_, rfl⟩

theorem witness_InvReservedBitsReadZero : Inv afterW1 := afterW1_inv

theorem witness_ReportedFrameChecksOut :
    Inv afterW1 ∧ statusValid afterW1.status = true ∧ statusLastop afterW1.status = 2 :=
  ⟨afterW1_inv, by decide, by decide⟩

end Sys2Proof.Tests
end

section
/-! SUPPORT. The scope statements: the bit length (R13), and elaborating a build and reading it in CONFIG (R7 to R9, R24). -/

namespace Sys2Proof.Machine

/-! ## Bit length -/

/-- Settles O17: that bitlen v is at most n exactly when v is below 2^n makes it the least such width. -/
theorem bitlenIsLeastWidth : Obligations.BitlenIsLeastWidth := by
  intro v
  refine ⟨lt_two_pow_bitlen v, fun _ => bitlen_le_iff.mpr, ?zero, fun pos => ?pos⟩
  case zero => rintro rfl; exact bitlen_zero
  case pos => rw [bitlen_of_pos pos, Nat.log2_eq_log_two]

/-! ## Builds -/

/-- Reading a CW_POLICY code inverts writing it. -/
theorem cwPolicyOf_eq_some_iff {n : Nat} {p : CwPolicy} : cwPolicyOf n = some p ↔ n = (cwCode p).toNat := by
  match n with
  | 0 | 1 | 2 => cases p <;> decide
  | n + 3 => cases p <;> simp [cwPolicyOf, cwCode]

theorem cwPolicyOf_eq_none_iff {n : Nat} : cwPolicyOf n = none ↔ 3 ≤ n := by
  match n with
  | 0 | 1 | 2 => decide
  | n + 3 => simp [cwPolicyOf]

/-- Reading a RANGE_POLICY code inverts writing it. -/
theorem rangePolicyOf_eq_some_iff {n : Nat} {p : RangePolicy} :
    rangePolicyOf n = some p ↔ n = (rangeCode p).toNat := by
  match n with
  | 0 | 1 => cases p <;> decide
  | n + 2 => cases p <;> simp [rangePolicyOf, rangeCode]

theorem rangePolicyOf_eq_none_iff {n : Nat} : rangePolicyOf n = none ↔ 2 ≤ n := by
  match n with
  | 0 | 1 => decide
  | n + 2 => simp [rangePolicyOf]

theorem elaborateBuild_eq_none_iff {src cw range : Nat} :
    elaborateBuild src cw range = none ↔ 256 ≤ src ∨ 3 ≤ cw ∨ 2 ≤ range := by
  rw [← cwPolicyOf_eq_none_iff, ← rangePolicyOf_eq_none_iff, elaborateBuild]
  by_cases fits : src < 256
  · cases cwPolicyOf cw <;> cases rangePolicyOf range <;> simp [portWidth, fits]
  · simp [portWidth, fits, Nat.le_of_not_lt fits]

/-- A build is elaborated from its own three numbers only. -/
theorem elaborateBuild_eq_some {src cw range : Nat} {b : Build} (h : elaborateBuild src cw range = some b) :
    src = b.srcAddr.toNat ∧ cw = (cwCode b.cwPolicy).toNat ∧ range = (rangeCode b.rangePolicy).toNat := by
  unfold elaborateBuild at h
  split at h
  case isFalse => cases h
  case isTrue fits =>
    split at h
    next c r hc hr =>
      cases h
      exact ⟨(Nat.mod_eq_of_lt fits).symm, cwPolicyOf_eq_some_iff.mp hc, rangePolicyOf_eq_some_iff.mp hr⟩
    next => cases h

/-- R24's fields of CONFIG as a sum, DATA_WIDTH and PORT_WIDTH both 8. -/
theorem configWord_toNat (b : Build) :
    (configWord b).toNat = b.srcAddr.toNat + 8 * 2 ^ 8 + 8 * 2 ^ 16 + (cwCode b.cwPolicy).toNat * 2 ^ 24
      + (rangeCode b.rangePolicy).toNat * 2 ^ 26 := by
  simp only [configWord, BitVec.toNat_append]
  rw [← Nat.shiftLeft_add_eq_or_of_lt b.srcAddr.isLt, ← Nat.shiftLeft_add_eq_or_of_lt (BitVec.isLt _),
    ← Nat.shiftLeft_add_eq_or_of_lt (BitVec.isLt _), ← Nat.shiftLeft_add_eq_or_of_lt (cwCode b.cwPolicy).isLt,
    ← Nat.shiftLeft_add_eq_or_of_lt (rangeCode b.rangePolicy).isLt]
  simp only [Nat.shiftLeft_eq, BitVec.ofNat_eq_ofNat, BitVec.toNat_ofNat, portWidth, dataWidth]
  omega

/-- Settles O46: a build is refused when one of its three numbers has no meaning, and otherwise holds those numbers. -/
theorem invalidBuildsAreRefused : Obligations.InvalidBuildsAreRefused := by
  intro src cw range
  refine ⟨elaborateBuild_eq_none_iff, fun b h => ?_⟩
  obtain ⟨rfl, rfl, rfl⟩ := elaborateBuild_eq_some h
  exact configWord_toNat b

end Sys2Proof.Machine
end

section
/-! SUPPORT. The sizes of the engine's result (R81, R96), and what the registers that report it hold (R31 to R33). -/

namespace Sys2Proof.Machine

/-! ## Sizes of the engine's result -/

/-- The sum of four k-bit sections (R81 (b)). -/
theorem engine_sum_le (h : Nat) : (engine h).sum ≤ 4 * (2 ^ (engine h).k - 1) := by
  have h1 := engine_s1_lt h
  have h2 := engine_s2_lt h
  have h3 := engine_s3_lt h
  have h4 := engine_s4_lt h
  rw [engine_sum]
  omega

theorem engine_sum_lt (h : Nat) : (engine h).sum < 2 ^ ((engine h).k + 2) := by
  have le := engine_sum_le h
  have pos : 0 < 2 ^ (engine h).k := by positivity
  rw [pow_add]
  omega

theorem engine_k_le_cw (h : Nat) : (engine h).k ≤ (engine h).cw := le_max_left _ _

theorem engine_cw_le (h : Nat) : (engine h).cw ≤ (engine h).k + 2 := by
  rw [engine_cw]
  exact max_le (by omega) (bitlen_le_iff.mpr (engine_sum_lt h))

theorem engine_cw_pos {h : Nat} (pos : 1 ≤ h) : 1 ≤ (engine h).cw :=
  (engine_k_pos h pos).trans_le (engine_k_le_cw h)

section
variable {h : Nat} (lt : h < 2 ^ 32)
include lt

theorem engine_l_le : (engine h).l ≤ 32 := bitlen_le_iff.mpr lt

theorem engine_k_le : (engine h).k ≤ 8 := by
  have l : bitlen h ≤ 32 := bitlen_le_iff.mpr lt
  have k := four_sectionWidth_le (bitlen h)
  rw [engine_k]
  omega

theorem engine_sum_le_1020 : (engine h).sum ≤ 1020 := by
  have pow : 2 ^ (engine h).k ≤ 2 ^ 8 := Nat.pow_le_pow_right (by norm_num) (engine_k_le lt)
  have sum := engine_sum_le h
  omega

theorem engine_cw_le_ten : (engine h).cw ≤ 10 := by
  have k := engine_k_le lt
  have cw := engine_cw_le h
  omega

theorem engine_ck_lt_1024 : (engine h).ck < 2 ^ 10 :=
  (engine_ck_lt h).trans_le (Nat.pow_le_pow_right (by norm_num) (engine_cw_le_ten lt))

end

/-! ## The engine's registers -/

/-- On fields that fit their byte, CKINFO's `|` is `+` (R33). -/
theorem ckInfo_fields_eq_add {l k cw : Nat} (hk : k < 256) (hcw : cw < 256) :
    (l <<< 16) ||| (k <<< 8) ||| cw = l * 2 ^ 16 + k * 2 ^ 8 + cw := by
  have high : (l <<< 16) ||| (k <<< 8) = (l * 2 ^ 8 + k) <<< 8 := by
    rw [← Nat.shiftLeft_add_eq_or_of_lt (by rw [Nat.shiftLeft_eq]; omega)]
    simp only [Nat.shiftLeft_eq]
    omega
  rw [high, ← Nat.shiftLeft_add_eq_or_of_lt (by omega), Nat.shiftLeft_eq]
  omega

/-- A state whose three registers were written from the engine's result on h reports it. -/
theorem reportsEngine_of_eq {s : State} {h : Nat} (lt : h < 2 ^ 32)
    (ck : s.cksum = BitVec.ofNat 32 (engine h).ck) (sum : s.sum = BitVec.ofNat 32 (engine h).sum)
    (info : s.ckInfo = BitVec.ofNat 32 (((engine h).l <<< 16) ||| ((engine h).k <<< 8) ||| (engine h).cw)) :
    reportsEngine s h := by
  have k := engine_k_le lt
  have cw := engine_cw_le_ten lt
  exact ⟨ck, sum, by rw [info, ckInfo_fields_eq_add (by omega) (by omega)]⟩

section
variable {s : State} {h : Nat} (lt : h < 2 ^ 32) (r : reportsEngine s h)
include lt r

theorem reportsEngine.cksum_toNat : s.cksum.toNat = (engine h).ck := by
  have ck := engine_ck_lt_1024 lt
  rw [r.1, BitVec.toNat_ofNat, Nat.mod_eq_of_lt (by omega)]

theorem reportsEngine.sum_toNat : s.sum.toNat = (engine h).sum := by
  have sum := engine_sum_le_1020 lt
  rw [r.2.1, BitVec.toNat_ofNat, Nat.mod_eq_of_lt (by omega)]

theorem reportsEngine.ckInfo_toNat :
    s.ckInfo.toNat = (engine h).l * 2 ^ 16 + (engine h).k * 2 ^ 8 + (engine h).cw := by
  have l := engine_l_le lt
  have k := engine_k_le lt
  have cw := engine_cw_le_ten lt
  rw [r.2.2, BitVec.toNat_ofNat, Nat.mod_eq_of_lt (by omega)]

/-- No field of CKINFO runs into the next (R33). -/
theorem reportsEngine.ckInfo_fields :
    (s.ckInfo.extractLsb' 0 8).toNat = (engine h).cw ∧ (s.ckInfo.extractLsb' 8 8).toNat = (engine h).k ∧
    (s.ckInfo.extractLsb' 16 8).toNat = (engine h).l := by
  have l := engine_l_le lt
  have k := engine_k_le lt
  have cw := engine_cw_le_ten lt
  simp only [BitVec.extractLsb'_toNat, Nat.shiftRight_eq_div_pow, r.ckInfo_toNat lt]
  omega

theorem reportsEngine.ckInfo_lt : s.ckInfo.toNat < 2 ^ 24 := by
  have l := engine_l_le lt
  have k := engine_k_le lt
  have cw := engine_cw_le_ten lt
  rw [r.ckInfo_toNat lt]
  omega

theorem reportsEngine.ckInfo_ne_zero (pos : 1 ≤ h) : s.ckInfo ≠ 0 := by
  have cw := engine_cw_pos pos
  have info := r.ckInfo_toNat lt
  intro zero
  rw [zero] at info
  simp only [BitVec.ofNat_eq_ofNat, BitVec.toNat_ofNat] at info
  omega

end

/-- The bits from n up are 0 in a word below 2^n. -/
theorem extractLsb'_eq_zero_of_lt {v : Word} {n : Nat} (m : Nat) (lt : v.toNat < 2 ^ n) : v.extractLsb' n m = 0 := by
  apply BitVec.eq_of_toNat_eq
  simp [BitVec.extractLsb'_toNat, Nat.shiftRight_eq_zero _ _ lt]

/-- A completed CKSUM reports the engine on CK_IN (R80). -/
theorem reportsEngine_cksum (s : State) :
    reportsEngine ((s.withEngine (engine s.ckIn.toNat)).succeed (encode .cksum)) s.ckIn.toNat :=
  reportsEngine_of_eq s.ckIn.isLt rfl rfl rfl

/-- Settles O23: CKSUM's next state reports the engine, and the registers that do lose no bit of its result. -/
theorem cksumRegistersLoseNoBit : Obligations.CksumRegistersLoseNoBit := by
  intro s pos
  have lt := s.ckIn.isLt
  have r := reportsEngine_cksum s
  obtain ⟨cw, k, l⟩ := r.ckInfo_fields lt
  refine ⟨_, exec_cksum_pos (by omega), r.cksum_toNat lt, ?_, r.sum_toNat lt, ?_, cw, k, l,
    extractLsb'_eq_zero_of_lt 8 (r.ckInfo_lt lt), engine_cw_pos pos, engine_cw_le_ten lt, engine_k_pos _ pos,
    engine_k_le lt, bitlen_pos pos, engine_l_le lt⟩
  · rw [r.cksum_toNat lt]; exact engine_ck_lt_1024 lt
  · rw [r.sum_toNat lt]; exact engine_sum_le_1020 lt

end Sys2Proof.Machine
end

section
/-! SUPPORT. Steps that read and write registers, what each event does to the registers, and CONFIG (R24, R39). -/

namespace Sys2Proof.Machine

/-! ## A read and a write of a register, as steps -/

theorem step_read {s : State} {r : Reg} {rest : List Event}
    (h : s.pending = .transaction ⟨.read, r.offset, .four⟩ :: rest) :
    step s = .next ((s.withPending rest).withResponse (readOkay (readReg (s.withPending rest) r))) := by
  rw [step_event h]
  exact performTransaction_read _ r

theorem step_write {s t : State} {r : Reg} {v : Word} {rest : List Event}
    (h : s.pending = .transaction ⟨.write v, r.offset, .four⟩ :: rest)
    (w : writeReg v (s.withPending rest) r = .next t) : step s = .next (t.withResponse writeOkay) := by
  rw [step_event h]
  exact (performTransaction_write _ r v).trans (by rw [w]; rfl)

/-- A register that stores its write reads it back in the next step (R45, R52). -/
theorem step_read_after_write {s t : State} {r : Reg} {v : Word} {rest : List Event}
    (h : s.pending = .transaction ⟨.write v, r.offset, .four⟩ :: .transaction ⟨.read, r.offset, .four⟩ :: rest)
    (w : writeReg v (s.withPending (.transaction ⟨.read, r.offset, .four⟩ :: rest)) r = .next t)
    (pending : t.pending = .transaction ⟨.read, r.offset, .four⟩ :: rest) (responses : t.responses = s.responses)
    (stored : readReg ((t.withResponse writeOkay).withPending rest) r = v) :
    ∃ t u, step s = .next t ∧ step t = .next u ∧
      u.responses = s.responses ++ [⟨.okay, none⟩, ⟨.okay, some v⟩] ∧ u.pending = rest := by
  refine ⟨_, _, step_write h w, step_read (r := r) (rest := rest) (by simpa using pending), ?_, rfl⟩
  rw [stored]
  simp [responses, writeOkay, readOkay]

/-- Settles O39: each of the three operand registers stores its write whole. -/
theorem operandReadsBackWritten : Obligations.OperandReadsBackWritten := by
  intro s off v rest operand h
  simp only [List.mem_cons, List.not_mem_nil, or_false] at operand
  rcases operand with rfl | rfl | rfl
  · exact step_read_after_write (r := .dest) h rfl rfl rfl rfl
  · exact step_read_after_write (r := .data) h rfl rfl rfl rfl
  · exact step_read_after_write (r := .ckIn) h rfl rfl rfl rfl

/-! ## What an event does to the registers -/

/-- STATUS, the result registers of R39 and the build are the same in t as in s. -/
structure KeepsResults (s t : State) : Prop where
  build      : t.build = s.build
  status     : t.status = s.status
  header     : t.header = s.header
  cksum      : t.cksum = s.cksum
  sum        : t.sum = s.sum
  ckInfo     : t.ckInfo = s.ckInfo
  frameLo    : t.frameLo = s.frameLo
  frameHi    : t.frameHi = s.frameHi
  frameWidth : t.frameWidth = s.frameWidth

/-- What an event that writes no command can do to the wire: nothing, a hand-over (R104), or the next event (R109). -/
inductive WireMove (s t : State) : Prop where
  | stays (left : t.wireLeft = s.wireLeft) (done : t.wireDone = s.wireDone)
  | starts (idle : s.wireLeft = []) (frame : s.frameWidth ≠ 0)
      (left : t.wireLeft = emission (frameValue s) s.frameWidth.toNat) (done : t.wireDone = s.wireDone)
  | emits (e : WireEvent) (first : s.wireLeft = e :: t.wireLeft) (done : t.wireDone = s.wireDone ++ [e])

/-- The three rows of R39 for the writers of STATUS and the result registers: reset, a command word, and no writer. -/
inductive EventEffect (s : State) (e : Event) (t : State) : Prop where
  | reset (he : e = .reset) (ht : t = s.blockReset)
  | command (w : Word) (he : cmdWordOf s.baseAddr e = some w) (u : State) (ends : CmdEnd s w u)
      (ht : t = u.withResponse writeOkay)
  | none (hr : e ≠ .reset) (hw : cmdWordOf s.baseAddr e = none) (keeps : KeepsResults s t) (wire : WireMove s t)

/-! ## The command word an event carries -/

/-- Of the transactions exactly the accepted writes of CMD carry a command word (R25, R43). -/
theorem cmdWordOf_transaction_eq_some {base : Nat} {x : Transaction} {w : Word} :
    cmdWordOf base (.transaction x) = some w ↔ x = ⟨.write w, Reg.cmd.offset, .four⟩ := by
  obtain ⟨kind, off, size⟩ := x
  cases kind with
  | read => simp [cmdWordOf]
  | write v => cases size <;> simp [cmdWordOf, and_comm]

theorem cmdWordOf_of_not_accept (base : Nat) {x : Transaction} (h : accept x.off x.size = false) :
    cmdWordOf base (.transaction x) = none := by
  refine Option.eq_none_iff_forall_ne_some.mpr fun w hw => ?_
  rw [cmdWordOf_transaction_eq_some.mp hw, accept_offset] at h
  cases h

theorem cmdWordOf_write_ne_cmd (base : Nat) (v : Word) {r : Reg} (h : r ≠ .cmd) :
    cmdWordOf base (.transaction ⟨.write v, r.offset, .four⟩) = none := by
  cases r
  case cmd => exact absurd rfl h
  all_goals rfl

theorem windowOffset_eq_some {base addr : Nat} {off : BitVec 8} (h : windowOffset base addr = some off) :
    addr = base + off.toNat := by
  unfold windowOffset at h
  split at h
  case isFalse => cases h
  case isTrue inside =>
    cases h
    unfold windowSize at inside
    simp only [BitVec.toNat_ofNat]
    omega

/-- Inside the window an access by system address carries the command word of its transaction (R41). -/
theorem cmdWordOf_systemAccess (base : Nat) (kind : Access) (off : BitVec 8) (size : Size) :
    cmdWordOf base (.systemAccess (base + off.toNat) kind size) =
      cmdWordOf base (.transaction ⟨kind, off, size⟩) := by
  have cmd : base + off.toNat = base + 4 ↔ off = Reg.cmd.offset := by
    rw [Nat.add_left_cancel_iff, ← BitVec.toNat_inj]
    rfl
  cases kind with
  | read => rfl
  | write v =>
    cases size with
    | one | two => rfl
    | four => simp only [cmdWordOf, cmd]

theorem cmdWordOf_outside {base addr : Nat} (kind : Access) (size : Size) (h : windowOffset base addr = none) :
    cmdWordOf base (.systemAccess addr kind size) = none := by
  have notCmd : addr ≠ base + 4 := by
    rintro rfl
    rw [show base + 4 = base + Reg.cmd.offset.toNat from rfl, windowOffset_inside] at h
    cases h
  cases kind with
  | read => rfl
  | write v => cases size <;> simp [cmdWordOf, notCmd]

/-! ## Every event has one of the three effects -/

theorem KeepsResults.withResponse (s : State) (r : Response) : KeepsResults s (s.withResponse r) := by
  constructor <;> rfl

theorem transaction_effect {s t : State} {x : Transaction} (h : TransactionEnd s x t) :
    EventEffect s (.transaction x) t := by
  cases h with
  | refused no =>
    exact .none (by simp) (cmdWordOf_of_not_accept _ no) (.withResponse s _) (.stays rfl rfl)
  | read r hx =>
    subst hx
    exact .none (by simp) rfl (.withResponse s _) (.stays rfl rfl)
  | write r v hx ends =>
    subst hx
    cases ends with
    | cmd h => exact .command v (cmdWordOf_transaction_eq_some.mpr rfl) _ h rfl
    | ignored readOnly =>
      exact .none (by simp) (cmdWordOf_write_ne_cmd _ _ (by rintro rfl; simp at readOnly)) (.withResponse s _)
        (.stays rfl rfl)
    | dest => exact .none (by simp) rfl (by constructor <;> rfl) (.stays rfl rfl)
    | data => exact .none (by simp) rfl (by constructor <;> rfl) (.stays rfl rfl)
    | ckIn => exact .none (by simp) rfl (by constructor <;> rfl) (.stays rfl rfl)

/-- R39 for every event: each has one of the three effects. -/
theorem event_effect {s t : State} {e : Event} (h : EventEnd s e t) : EventEffect s e t := by
  cases h with
  | transaction x ends => exact transaction_effect ends
  | inside addr kind size off ho ends =>
    obtain rfl := windowOffset_eq_some ho
    have word := cmdWordOf_systemAccess s.baseAddr kind off size
    cases transaction_effect ends with
    | reset he => cases he
    | command w hw u cmd ht => exact .command w (word.trans hw) u cmd ht
    | none _ hw keeps wire => exact .none (by simp) (word.trans hw) keeps wire
  | outside addr kind size ho =>
    exact .none (by simp) (cmdWordOf_outside kind size ho) (by constructor <;> rfl) (.stays rfl rfl)
  | reset => exact .reset rfl rfl
  | handOver idle frame => exact .none (by simp) rfl (by constructor <;> rfl) (.starts idle frame rfl rfl)
  | wireIdle => exact .none (by simp) rfl (by constructor <;> rfl) (.stays rfl rfl)
  | wireTick e l first => exact .none (by simp) rfl (by constructor <;> rfl) (.emits e first rfl)

/-! ## CONFIG -/

/-- A command changes no build parameter (R130). -/
theorem CmdEnd.build {s u : State} {w : Word} (h : CmdEnd s w u) : u.build = s.build := by
  cases h with
  | illegal => rfl
  | command i _ ends => cases ends <;> rfl

/-- No step changes the build (R130). -/
theorem step_build {s t : State} (h : step s = .next t) : t.build = s.build := by
  rcases step_cases h with ⟨-, rfl⟩ | ⟨e, rest, -, ends⟩
  · rfl
  · cases event_effect ends with
    | reset _ ht => subst ht; rfl
    | command w _ u cmd ht => subst ht; exact cmd.build
    | none _ _ keeps _ => exact keeps.build

/-- The fields of CONFIG, from bit 0 up (R24). -/
theorem configWord_fields (b : Build) :
    (configWord b).extractLsb' 0 8 = b.srcAddr ∧ (configWord b).extractLsb' 8 8 = 8 ∧
    (configWord b).extractLsb' 16 8 = 8 ∧ (configWord b).extractLsb' 24 2 = cwCode b.cwPolicy ∧
    (configWord b).extractLsb' 26 1 = rangeCode b.rangePolicy ∧ (configWord b).extractLsb' 27 5 = 0 := by
  have src := b.srcAddr.isLt
  have cw := (cwCode b.cwPolicy).isLt
  have range := (rangeCode b.rangePolicy).isLt
  refine ⟨?_, ?_, ?_, ?_, ?_, ?_⟩ <;> apply BitVec.eq_of_toNat_eq <;>
    simp only [BitVec.extractLsb'_toNat, Nat.shiftRight_eq_div_pow, configWord_toNat, BitVec.ofNat_eq_ofNat,
      BitVec.toNat_ofNat] <;> omega

/-- Settles O43: CONFIG is a view of the build, which no step changes, and a write of it is ignored. -/
theorem configReportsBuild : Obligations.ConfigReportsBuild := by
  refine ⟨fun b => ?fields, by decide, fun b base => rfl, fun s t h => ?constant, fun s v rest h => ?ignored⟩
  case fields =>
    obtain ⟨src, data, port, cw, range, reserved⟩ := configWord_fields b
    refine ⟨src, data, port, cw.trans ?_, range.trans ?_, reserved⟩
    · cases b.cwPolicy <;> rfl
    · cases b.rangePolicy <;> rfl
  case constant => exact congrArg configWord (step_build h)
  case ignored => exact step_write (r := .config) h rfl

end Sys2Proof.Machine
end

section
/-! SUPPORT. The header's engine run and the frame (R61 to R63, R96), and what the frame registers hold (R34 to R36). -/

namespace Sys2Proof.Machine

/-! ## The engine on a header -/

theorem packHeader_bounds (src : BitVec 8) {o : HeaderOperands} (hd : o.dst < 256) (hx : o.dat < 256) :
    2 ^ 24 ≤ packHeader src o ∧ packHeader src o < 2 ^ 25 := by
  have hs := src.isLt
  have eq : packHeader src o = _ := packHeader_eq src hd hx
  omega

section
variable {h : Nat} (lo : 2 ^ 24 ≤ h) (hi : h < 2 ^ 25)
include lo hi

theorem engine_k_of_header : (engine h).k = 7 := by rw [engine_k, bitlen_eq_succ lo hi]; rfl

/-- Section 4 of a header has 4 bits, so the sum of a header stays below 2^9 (R96 (c)). -/
theorem engine_sum_le_of_header : (engine h).sum ≤ 396 := by
  have k := engine_k_of_header lo hi
  have h1 := engine_s1_lt h
  have h2 := engine_s2_lt h
  have h3 := engine_s3_lt h
  have h4 := engine_s4 h
  rw [section4_eq] at h4
  rw [k] at h1 h2 h3 h4
  rw [engine_sum, h4]
  omega

theorem engine_cw_le_of_header : (engine h).cw ≤ 9 := by
  have sum := engine_sum_le_of_header lo hi
  rw [engine_cw, engine_k_of_header lo hi]
  exact max_le (by omega) (bitlen_le_iff.mpr (by omega))

/-- No policy's field is wider than CW, or than 6 bits (R90 to R92). -/
theorem checksumField_ffw_le (p : CwPolicy) : (checksumField p (engine h)).ffw ≤ 9 := by
  have cw := engine_cw_le_of_header lo hi
  cases p with
  | actual => exact cw
  | nominal => change 6 ≤ 9; omega
  | natural => exact (bitlen_le_iff.mpr (engine_ck_lt h)).trans cw

end

/-! ## The frame -/

theorem frameBits_eq (f : ChecksumField) : frameBits f = 25 + f.ffw := rfl

/-- The checksum field's value fits its width under every policy (R90 to R92). -/
theorem checksumField_cf_lt (p : CwPolicy) (h : Nat) :
    (checksumField p (engine h)).cf < 2 ^ (checksumField p (engine h)).ffw := by
  cases p with
  | actual => exact engine_ck_lt h
  | nominal => exact Nat.mod_lt _ (by positivity)
  | natural => exact lt_two_pow_bitlen _

/-- The frame as a number (R63): the checksum field stands below the header. -/
theorem packFrame_eq (p : CwPolicy) (h : Nat) :
    packFrame h (checksumField p (engine h)) =
      h * 2 ^ (checksumField p (engine h)).ffw + (checksumField p (engine h)).cf := by
  rw [packFrame, ← Nat.shiftLeft_add_eq_or_of_lt (checksumField_cf_lt p h), Nat.shiftLeft_eq]

/-- A 25-bit header over an n-bit field makes a frame of 25 + n bits (R63, R97). -/
theorem bitlen_frame {h n cf : Nat} (lo : 2 ^ 24 ≤ h) (hi : h < 2 ^ 25) (fits : cf < 2 ^ n) :
    bitlen (h * 2 ^ n + cf) = 25 + n := by
  have top : (h + 1) * 2 ^ n ≤ 2 ^ 25 * 2 ^ n := Nat.mul_le_mul_right _ hi
  have bottom : 2 ^ 24 * 2 ^ n ≤ h * 2 ^ n := Nat.mul_le_mul_right _ lo
  rw [Nat.add_right_comm 24 1 n]
  refine bitlen_eq_succ ?_ ?_
  · rw [pow_add]; omega
  · rw [Nat.add_right_comm, pow_add]; rw [add_mul] at top; omega

theorem frameValue_eq (s : State) : frameValue s = s.frameHi.toNat * 2 ^ 32 + s.frameLo.toNat := by
  rw [frameValue, ← Nat.shiftLeft_add_eq_or_of_lt s.frameLo.isLt, Nat.shiftLeft_eq]

/-- FRAME_HI and FRAME_LO take a frame of up to 64 bits whole (R34, R35). -/
theorem frameValue_of_eq {s : State} {frame : Nat} (lt : frame < 2 ^ 64)
    (hi : s.frameHi = BitVec.ofNat 32 (frame >>> 32)) (lo : s.frameLo = BitVec.ofNat 32 (frame % 2 ^ 32)) :
    frameValue s = frame := by
  rw [frameValue_eq, hi, lo, BitVec.toNat_ofNat, BitVec.toNat_ofNat, Nat.shiftRight_eq_div_pow]
  omega

/-! ## What the frame registers hold -/

section
variable {s : State} {o : HeaderOperands} (hd : o.dst < 256) (hx : o.dat < 256)
include hd hx

/-- A successful ENCODE of these operands leaves their encoding in the frame registers (R93). -/
theorem holdsFrame_withEncoding : holdsFrame (s.withEncoding (packHeader s.build.srcAddr o)) o := by
  obtain ⟨lo, hi⟩ := packHeader_bounds s.build.srcAddr hd hx
  have ffw := checksumField_ffw_le lo hi s.build.cwPolicy
  have lt : packFrame (packHeader s.build.srcAddr o)
      (checksumField s.build.cwPolicy (engine (packHeader s.build.srcAddr o))) < 2 ^ 64 := by
    rw [packFrame_eq]
    refine (bitlen_le_iff.mp (bitlen_frame lo hi (checksumField_cf_lt _ _)).le).trans_le ?_
    exact Nat.pow_le_pow_right (by norm_num) (by omega)
  refine ⟨rfl, ?_, ?_⟩
  · rw [frameValue_of_eq lt rfl rfl, packFrame_eq]; rfl
  · rw [State.withEncoding_frameWidth, frameBits_eq, BitVec.toNat_ofNat]
    exact Nat.mod_eq_of_lt (by omega)

variable (hf : holdsFrame s o)
include hf

theorem holdsFrame.header_toNat : s.header.toNat = packHeader s.build.srcAddr o := by
  obtain ⟨lo, hi⟩ := packHeader_bounds s.build.srcAddr hd hx
  rw [hf.1, BitVec.toNat_ofNat, Nat.mod_eq_of_lt (by omega)]

theorem holdsFrame.bitlen_frameValue : bitlen (frameValue s) = s.frameWidth.toNat := by
  obtain ⟨lo, hi⟩ := packHeader_bounds s.build.srcAddr hd hx
  obtain ⟨-, value, width⟩ := hf
  rw [value, width]
  exact bitlen_frame lo hi (checksumField_cf_lt _ _)

theorem holdsFrame.frameWidth_bounds : 25 ≤ s.frameWidth.toNat ∧ s.frameWidth.toNat ≤ 34 := by
  obtain ⟨lo, hi⟩ := packHeader_bounds s.build.srcAddr hd hx
  have ffw := checksumField_ffw_le lo hi s.build.cwPolicy
  obtain ⟨-, -, width⟩ := hf
  omega

theorem holdsFrame.frameWidth_ne_zero : s.frameWidth ≠ 0 := by
  have lo := (hf.frameWidth_bounds hd hx).1
  intro zero
  rw [zero] at lo
  cases lo

theorem holdsFrame.frameHi_lt : s.frameHi.toNat < 2 ^ 2 := by
  have lt : frameValue s < 2 ^ 34 :=
    bitlen_le_iff.mp ((hf.bitlen_frameValue hd hx).trans_le (hf.frameWidth_bounds hd hx).2)
  rw [frameValue_eq] at lt
  omega

end

end Sys2Proof.Machine
end

section
/-! SUPPORT. What a command word does, and with it R39 row by row. -/

namespace Sys2Proof.Machine

/-! ## What a command word does -/

/-- Every way a command word can end, by what it writes: nothing, STATUS alone, or a whole result (R100, R121, R122). -/
inductive CommandEffect (s : State) (w : Word) : State → Prop where
  | nop (hw : w = 0) : CommandEffect s w s
  | error (hw : w ≠ 0) (c : ErrorCode) (legal : statusLegal (errorRecord w c)) : CommandEffect s w (s.raiseError w c)
  | cksum (hw : w = 1) (pos : 1 ≤ s.ckIn.toNat) :
      CommandEffect s w ((s.withEngine (engine s.ckIn.toNat)).succeed (encode .cksum))
  | encode (hw : w = 2) : CommandEffect s w (s.withEncoding (headerOf s))

/-- The record of an illegal word is one of R39's. -/
theorem statusLegal_illegalCommand (w : Word) : statusLegal (errorRecord w .illegalCommand) := by
  iterate 6 right
  exact ⟨w.toNat % 16, Nat.mod_lt _ (by norm_num), errorRecord_ofNat w .illegalCommand⟩

theorem CmdEnd.effect {s u : State} {w : Word} (h : CmdEnd s w u) : CommandEffect s w u := by
  cases h with
  | illegal h0 => exact .error h0 _ (statusLegal_illegalCommand w)
  | command i hw ends =>
    subst hw
    cases ends with
    | nop => exact .nop rfl
    | degenerate => exact .error (by decide) _ (by simp [statusLegal])
    | cksum pos => exact .cksum rfl (Nat.one_le_iff_ne_zero.mpr pos)
    | rangeDest => exact .error (by decide) _ (by simp [statusLegal])
    | rangeData => exact .error (by decide) _ (by simp [statusLegal])
    | encode => exact .encode rfl

theorem errorRecord_errcode_ne_zero (w : Word) (c : ErrorCode) : statusErrcode (errorRecord w c) ≠ 0 := by
  obtain ⟨-, -, -, code⟩ := errorRecord_fields w c
  intro zero
  rw [zero] at code
  cases c <;> revert code <;> decide

/-- An error record is no record of a success. -/
theorem errorRecord_ne_of_no_err (w : Word) (c : ErrorCode) {v : Word} (h : statusErr v = false) :
    errorRecord w c ≠ v := by
  rintro rfl
  rw [(errorRecord_fields w c).1] at h
  cases h

theorem headerOf_bounds (s : State) : 2 ^ 24 ≤ headerOf s ∧ headerOf s < 2 ^ 25 :=
  packHeader_bounds s.build.srcAddr (Nat.mod_lt _ (by norm_num)) (Nat.mod_lt _ (by norm_num))

/-- ENCODE leaves the encoding of the low bytes of DEST and DATA (R89). -/
theorem holdsFrame_encode (s : State) :
    holdsFrame (s.withEncoding (headerOf s)) ⟨s.dest.toNat % 256, s.data.toNat % 256⟩ :=
  holdsFrame_withEncoding (Nat.mod_lt _ (by norm_num)) (Nat.mod_lt _ (by norm_num))

/-- ENCODE reports the engine on the HEADER it writes (R93). -/
theorem reportsEngine_encode (s : State) :
    reportsEngine (s.withEncoding (headerOf s)) (s.withEncoding (headerOf s)).header.toNat := by
  obtain ⟨-, hi⟩ := headerOf_bounds s
  have header : (s.withEncoding (headerOf s)).header.toNat = headerOf s := by
    rw [State.withEncoding_header, BitVec.toNat_ofNat, Nat.mod_eq_of_lt (by omega)]
  rw [header]
  exact reportsEngine_of_eq (by omega) rfl rfl rfl

/-! ## The three rows of R39 for a command word -/

theorem CommandEffect.eq_of_nop {s u : State} (h : CommandEffect s 0 u) : u = s := by
  cases h with
  | nop => rfl
  | error hw => exact absurd rfl hw
  | cksum hw => cases hw
  | encode hw => cases hw

theorem CommandEffect.eq_of_err {s u : State} {w : Word} (h : CommandEffect s w u) (hw : w ≠ 0)
    (err : statusErr u.status = true) : ∃ c, u = s.raiseError w c := by
  cases h with
  | nop h0 => exact absurd h0 hw
  | error _ c => exact ⟨c, rfl⟩
  | cksum => cases (successRecord_fields _).1.symm.trans err
  | encode => cases (successRecord_fields _).1.symm.trans err

theorem CommandEffect.eq_of_no_err {s u : State} {w : Word} (h : CommandEffect s w u) (hw : w ≠ 0)
    (ok : statusErr u.status = false) :
    (w = 1 ∧ u = (s.withEngine (engine s.ckIn.toNat)).succeed (Sys2Proof.encode .cksum)) ∨
      (w = 2 ∧ u = s.withEncoding (headerOf s)) := by
  cases h with
  | nop h0 => exact absurd h0 hw
  | error _ c => exact absurd rfl (errorRecord_ne_of_no_err w c ok)
  | cksum h1 => exact .inl ⟨h1, rfl⟩
  | encode h2 => exact .inr ⟨h2, rfl⟩

/-- Settles O35: an event has one of three effects, and a command word's is a NOP's, an error's or a result. -/
theorem onlyCommandsAndResetWriteResults : Obligations.OnlyCommandsAndResetWriteResults := by
  intro s t e rest h next unchanged
  have ends := performEvent_cases (step_event h ▸ next)
  cases event_effect ends with
  | reset he ht =>
    subst he ht
    exact ⟨fun _ => ⟨rfl, rfl, rfl, rfl, rfl, rfl, rfl, rfl⟩, fun no => absurd rfl no, nofun, nofun, nofun⟩
  | none hr hw keeps _ =>
    have no (w : Word) : cmdWordOf s.baseAddr e ≠ some w := by
      intro some
      cases hw.symm.trans some
    exact ⟨fun he => absurd he hr,
      fun _ _ => ⟨keeps.status, keeps.header, keeps.cksum, keeps.sum, keeps.ckInfo, keeps.frameLo, keeps.frameHi,
        keeps.frameWidth⟩,
      fun hw => absurd hw (no 0), fun w hw => absurd hw (no w), fun w hw => absurd hw (no w)⟩
  | command w hw u cmd ht =>
    subst ht
    have word {v : Word} (hv : cmdWordOf s.baseAddr e = some v) : v = w := by
      cases hv.symm.trans hw
      rfl
    refine ⟨?notReset, ?hasWord, fun h0 => ?nop, fun v hv h0 err => ?error, fun v hv h0 ok => ?result⟩
    case notReset => rintro rfl; cases hw
    case hasWord => intro _ no; cases hw.symm.trans no
    case nop =>
      obtain rfl := word h0
      obtain rfl := cmd.effect.eq_of_nop
      exact ⟨rfl, rfl, rfl, rfl, rfl, rfl, rfl, rfl⟩
    case error =>
      obtain rfl := word hv
      obtain ⟨c, rfl⟩ := cmd.effect.eq_of_err h0 err
      obtain ⟨-, valid, lastop, -⟩ := errorRecord_fields v c
      exact ⟨valid, errorRecord_errcode_ne_zero v c, lastop, rfl, rfl, rfl, rfl, rfl, rfl, rfl⟩
    case result =>
      obtain rfl := word hv
      rcases cmd.effect.eq_of_no_err h0 ok with ⟨h1, rfl⟩ | ⟨h2, rfl⟩
      · obtain ⟨-, valid, lastop, code⟩ := successRecord_fields (encode .cksum)
        exact ⟨valid, code, .inl ⟨h1, lastop, reportsEngine_cksum (s.withPending rest), rfl, rfl, rfl, rfl⟩⟩
      · obtain ⟨-, valid, lastop, code⟩ := successRecord_fields (encode .encode)
        exact ⟨valid, code, .inr ⟨h2, lastop, reportsEngine_encode (s.withPending rest),
          holdsFrame_encode (s.withPending rest)⟩⟩

end Sys2Proof.Machine
end

section
/-! SUPPORT. Every step keeps the invariant of the machine, and where it holds every reserved bit reads 0 (R37). -/

namespace Sys2Proof.Machine

/-! ## The invariant, effect by effect -/

/-- What Inv says of the wire: an emission in progress is the rest of one whole emission of a frame (R109, R111). -/
def WireLegal (s : State) : Prop :=
  s.wireLeft = [] ∨ ∃ frame fw sent, 25 ≤ fw ∧ fw ≤ 34 ∧ bitlen frame = fw ∧
    emission frame fw = sent ++ s.wireLeft ∧ sent <:+ s.wireDone

theorem KeepsResults.reportsEngine_iff {s t : State} (k : KeepsResults s t) (h : Nat) :
    reportsEngine t h ↔ reportsEngine s h := by
  rw [reportsEngine, k.cksum, k.sum, k.ckInfo]; rfl

theorem KeepsResults.holdsFrame_iff {s t : State} (k : KeepsResults s t) (o : HeaderOperands) :
    holdsFrame t o ↔ holdsFrame s o := by
  simp only [holdsFrame, frameValue, k.build, k.header, k.frameLo, k.frameHi, k.frameWidth]

theorem Inv.of_keepsResults {s t : State} (hi : Inv s) (k : KeepsResults s t) (wire : WireLegal t) : Inv t where
  status_legal := k.status ▸ hi.status_legal
  checksum_legal := by
    simp only [k.cksum, k.sum, k.ckInfo, k.reportsEngine_iff]
    exact hi.checksum_legal
  frame_legal := by
    simp only [k.header, k.frameLo, k.frameHi, k.frameWidth, k.holdsFrame_iff]
    exact hi.frame_legal
  cksum_reported := by
    rw [k.status, k.ckInfo]
    exact hi.cksum_reported
  encode_reported := by
    rw [k.status, k.frameWidth, k.reportsEngine_iff, k.header]
    exact hi.encode_reported
  wire_legal := wire

theorem inv_blockReset {s : State} (wire : WireLegal s) : Inv s.blockReset where
  status_legal := .inl rfl
  checksum_legal := .inl ⟨rfl, rfl, rfl⟩
  frame_legal := .inl ⟨rfl, rfl, rfl, rfl⟩
  cksum_reported := nofun
  encode_reported := nofun
  wire_legal := wire

/-- An error writes STATUS alone, and its record is neither of the two that say something of the results (R121). -/
theorem Inv.raiseError {s : State} {w : Word} {c : ErrorCode} (hi : Inv s) (legal : statusLegal (errorRecord w c)) :
    Inv (s.raiseError w c) where
  status_legal := legal
  checksum_legal := hi.checksum_legal
  frame_legal := hi.frame_legal
  cksum_reported h := absurd h (errorRecord_ne_of_no_err w c rfl)
  encode_reported h := absurd h (errorRecord_ne_of_no_err w c rfl)
  wire_legal := hi.wire_legal

theorem Inv.cksum {s : State} (hi : Inv s) (pos : 1 ≤ s.ckIn.toNat) :
    Inv ((s.withEngine (engine s.ckIn.toNat)).succeed (Sys2Proof.encode .cksum)) :=
  have report := reportsEngine_cksum s
  { status_legal := .inr (.inl rfl)
    checksum_legal := .inr ⟨_, pos, s.ckIn.isLt, report⟩
    frame_legal := hi.frame_legal
    cksum_reported := fun _ => report.ckInfo_ne_zero s.ckIn.isLt pos
    encode_reported := nofun
    wire_legal := hi.wire_legal }

theorem Inv.encode {s : State} (hi : Inv s) : Inv (s.withEncoding (headerOf s)) :=
  have dst : s.dest.toNat % 256 < 256 := Nat.mod_lt _ (by norm_num)
  have dat : s.data.toNat % 256 < 256 := Nat.mod_lt _ (by norm_num)
  have frame := holdsFrame_encode s
  have report := reportsEngine_encode s
  have header : (s.withEncoding (headerOf s)).header.toNat = headerOf s := frame.header_toNat dst dat
  { status_legal := .inr (.inr (.inl rfl))
    checksum_legal := .inr ⟨_, by rw [header]; have := headerOf_bounds s; omega, BitVec.isLt _, report⟩
    frame_legal := .inr ⟨_, dst, dat, frame⟩
    cksum_reported := nofun
    encode_reported := fun _ => ⟨frame.frameWidth_ne_zero dst dat, report⟩
    wire_legal := hi.wire_legal }

theorem CommandEffect.inv {s u : State} {w : Word} (h : CommandEffect s w u) (hi : Inv s) : Inv u := by
  cases h with
  | nop => exact hi
  | error _ c legal => exact hi.raiseError legal
  | cksum _ pos => exact hi.cksum pos
  | encode => exact hi.encode

/-- A legal wire moves on to a legal wire: a hand-over starts a whole emission, and a tick sends its next event. -/
theorem WireMove.wireLegal {s t : State} (m : WireMove s t) (hi : Inv s) : WireLegal t := by
  cases m with
  | stays left done =>
    rw [WireLegal, left, done]
    exact hi.wire_legal
  | starts idle frame left done =>
    obtain ⟨-, -, -, zero⟩ | ⟨o, hd, hx, hf⟩ := hi.frame_legal
    · exact absurd zero frame
    · obtain ⟨lo, hi⟩ := hf.frameWidth_bounds hd hx
      exact .inr ⟨_, _, [], lo, hi, hf.bitlen_frameValue hd hx, left.symm, List.nil_suffix⟩
  | emits e first done =>
    obtain nil | ⟨frame, fw, sent, lo, hi, len, whole, last⟩ := hi.wire_legal
    · cases first.symm.trans nil
    · refine .inr ⟨frame, fw, sent ++ [e], lo, hi, len, ?_, ?_⟩
      · rw [whole, first, List.append_assoc, List.singleton_append]
      · rw [done]
        exact (List.suffix_append_inj_of_length_eq rfl).mpr ⟨last, rfl⟩

theorem EventEffect.inv {s t : State} {e : Event} (h : EventEffect s e t) (hi : Inv s) : Inv t := by
  cases h with
  | reset _ ht => exact ht ▸ inv_blockReset hi.wire_legal
  | command w _ u cmd ht =>
    have hu := cmd.effect.inv hi
    exact ht ▸ hu.of_keepsResults (.withResponse u _) hu.wire_legal
  | none _ _ keeps wire => exact hi.of_keepsResults keeps (wire.wireLegal hi)

/-- Settles O55: a step performs one event, and each effect an event can have keeps the invariant. -/
theorem stepKeepsInv : Obligations.StepKeepsInv := by
  intro s t hi next
  rcases step_cases next with ⟨-, rfl⟩ | ⟨e, rest, -, ends⟩
  · exact hi
  · have ready : Inv (s.withPending rest) := hi.of_keepsResults (by constructor <;> rfl) hi.wire_legal
    exact (event_effect ends).inv ready

/-- Settles O56: the reset state meets the invariant whatever is pending, and every step keeps it. -/
theorem everyRunKeepsInv : Obligations.EveryRunKeepsInv := by
  intro b base n events t run
  have start : Inv ((State.resetOf b base).withPending events) :=
    inv_blockReset (s := (State.resetOf b base).withPending events) (.inl rfl)
  exact run_keeps stepKeepsInv n _ t start run

/-! ## Reserved bits -/

/-- STATUS as R26 and R39 have it: reserved bits 0, never both flags, and a code exactly beside ERR. -/
theorem statusLegal.fields {v : Word} (h : statusLegal v) :
    v.extractLsb' 2 2 = 0 ∧ v.extractLsb' 12 20 = 0 ∧ ¬ (statusValid v = true ∧ statusErr v = true) ∧
    (statusErr v = false ↔ statusErrcode v = 0) ∧ statusErrcode v ≤ 4 := by
  rcases h with rfl | rfl | rfl | rfl | rfl | rfl | ⟨op, lt, rfl⟩
  case inr.inr.inr.inr.inr.inr => revert op; decide
  all_goals decide

/-- The engine's registers stay in their fields, at reset as after a run (R31 to R33). -/
theorem Inv.checksum_lt {s : State} (hi : Inv s) :
    s.cksum.toNat < 2 ^ 10 ∧ s.sum.toNat < 2 ^ 10 ∧ s.ckInfo.toNat < 2 ^ 24 := by
  obtain ⟨ck, sum, info⟩ | ⟨h, -, lt, r⟩ := hi.checksum_legal
  · rw [ck, sum, info]; decide
  · have sum := engine_sum_le_1020 lt
    rw [r.cksum_toNat lt, r.sum_toNat lt]
    exact ⟨engine_ck_lt_1024 lt, by omega, r.ckInfo_lt lt⟩

/-- HEADER and the frame registers stay in their fields, at reset as after an ENCODE (R30, R35, R36). -/
theorem Inv.frame_lt {s : State} (hi : Inv s) :
    s.header.toNat < 2 ^ 25 ∧ s.frameHi.toNat < 2 ^ 2 ∧ s.frameWidth.toNat < 2 ^ 8 := by
  obtain ⟨header, -, high, width⟩ | ⟨o, hd, hx, hf⟩ := hi.frame_legal
  · rw [header, high, width]; decide
  · have width := hf.frameWidth_bounds hd hx
    exact ⟨hf.header_toNat hd hx ▸ (packHeader_bounds _ hd hx).2, hf.frameHi_lt hd hx, by omega⟩

/-- Settles O57: STATUS holds a legal value, and every other register stays below its first reserved bit. -/
theorem invReservedBitsReadZero : Obligations.InvReservedBitsReadZero := by
  intro s hi
  obtain ⟨low, high, flags, code, le⟩ := hi.status_legal.fields
  obtain ⟨ck, sum, info⟩ := hi.checksum_lt
  obtain ⟨header, frameHi, width⟩ := hi.frame_lt
  obtain ⟨-, -, -, -, -, config⟩ := configWord_fields s.build
  exact ⟨low, high, flags, code, le, extractLsb'_eq_zero_of_lt 7 header, extractLsb'_eq_zero_of_lt 22 ck,
    extractLsb'_eq_zero_of_lt 22 sum, extractLsb'_eq_zero_of_lt 8 info, extractLsb'_eq_zero_of_lt 30 frameHi,
    extractLsb'_eq_zero_of_lt 24 width, config, rfl⟩

end Sys2Proof.Machine
end

section
/-! SUPPORT. Host access (R41, R43 to R45), a command repeated at once (R49), and what no step changes (D2). -/

namespace Sys2Proof.Machine

/-! ## Repeating a command -/

theorem State.withEncoding_withEncoding (s : State) (h : Nat) :
    (s.withEncoding h).withEncoding h = s.withEncoding h := rfl

/-- A command writes none of its operands, so it ends the second time as it did the first, in the same state (R49). -/
theorem CommandEnd.exec_repeat {i : Instr} {s t : State} (ends : CommandEnd s i t) : exec i t = .next t := by
  cases ends with
  | nop => exact exec_nop s
  | degenerate zero => exact exec_cksum_zero (s := s.raiseError _ _) zero
  | cksum pos => exact exec_cksum_pos (s := (s.withEngine _).succeed _) pos
  | rangeDest reject dest => exact exec_encode_dest (s := s.raiseError _ _) reject dest
  | rangeData reject dest data => exact exec_encode_data (s := s.raiseError _ _) reject dest data
  | encode runs =>
    have header : headerOf (s.withEncoding (headerOf s)) = headerOf s := rfl
    rw [exec_encode_of_runs (s := s.withEncoding (headerOf s)) runs, header, State.withEncoding_withEncoding]

/-- Settles O13: every command ends in a next state, and repeated there it ends in that state again. -/
theorem repeatedCommandChangesNothing : Obligations.RepeatedCommandChangesNothing := by
  intro i s
  obtain ⟨t, next, ends⟩ := exec_ends i s
  exact ⟨t, next, ends.exec_repeat⟩

/-! ## BASE_ADDR -/

/-- A command word changes neither BASE_ADDR nor the responses given so far. -/
theorem CmdEnd.baseAddr_responses {s u : State} {w : Word} (h : CmdEnd s w u) :
    u.baseAddr = s.baseAddr ∧ u.responses = s.responses := by
  cases h.effect with
  | nop | error | cksum | encode => exact ⟨rfl, rfl⟩

theorem WriteEnd.baseAddr {s t : State} {v : Word} {r : Reg} (h : WriteEnd s v r t) : t.baseAddr = s.baseAddr := by
  cases h with
  | cmd ends => exact ends.baseAddr_responses.1
  | dest | data | ckIn | ignored => rfl

theorem TransactionEnd.baseAddr {s t : State} {x : Transaction} (h : TransactionEnd s x t) :
    t.baseAddr = s.baseAddr := by
  cases h with
  | refused | read => rfl
  | write _ _ _ ends => exact ends.baseAddr

theorem EventEnd.baseAddr {s t : State} {e : Event} (h : EventEnd s e t) : t.baseAddr = s.baseAddr := by
  cases h with
  | transaction _ ends => exact ends.baseAddr
  | inside _ _ _ _ _ ends => exact ends.baseAddr
  | outside | reset | handOver | wireIdle | wireTick => rfl

/-- Settles O59: a step is idle or performs one event, and no way an event can end changes BASE_ADDR. -/
theorem noStepChangesBaseAddr : Obligations.NoStepChangesBaseAddr := by
  intro s t next
  rcases step_cases next with ⟨-, rfl⟩ | ⟨e, rest, -, ends⟩
  · rfl
  · exact ends.baseAddr

/-! ## Transactions by offset -/

/-- Settles O36: a transaction the block does not accept is answered with the access error alone. -/
theorem unacceptedAccessHasNoEffect : Obligations.UnacceptedAccessHasNoEffect := by
  intro s x rest h unaccepted
  have refused : accept x.off x.size = false := Bool.eq_false_iff.mpr (unaccepted ∘ (accept_iff _ _).mp)
  exact (step_event h).trans (performTransaction_refused _ refused)

theorem readReg_withPending (s : State) (p : List Event) (r : Reg) : readReg (s.withPending p) r = readReg s r := by
  cases r <;> rfl

/-- Settles O37: the thirteen pairs are the registers of the map with their values, and a read answers the value. -/
theorem readReturnsRegister : Obligations.ReadReturnsRegister := by
  intro s off v rest h pair
  change (off, v) ∈ Reg.all.map fun r => (r.offset, readReg s r) at pair
  obtain ⟨r, -, eq⟩ := List.mem_map.mp pair
  cases eq
  rw [step_read h, readReg_withPending]
  rfl

theorem writeReg_ignored (v : Word) (s : State) {r : Reg} (readOnly : r ∉ [Reg.dest, .data, .ckIn, .cmd]) :
    writeReg v s r = .next s := by
  cases r
  case dest | data | ckIn | cmd => simp at readOnly
  all_goals rfl

/-- Settles O38: a write is a step that answers OKAY after what writeReg does: it stores, is ignored, or performs. -/
theorem writeActsByRegister : Obligations.WriteActsByRegister := by
  intro s off v rest h
  refine ⟨?dest, ?data, ?ckIn, fun readOnly => ?ignored, ?cmd⟩
  case dest => rintro rfl; exact step_write (r := .dest) h rfl
  case data => rintro rfl; exact step_write (r := .data) h rfl
  case ckIn => rintro rfl; exact step_write (r := .ckIn) h rfl
  case ignored =>
    change off ∈ (Reg.all.filter (· ∉ [Reg.dest, .data, .ckIn, .cmd])).map Reg.offset at readOnly
    obtain ⟨r, mem, rfl⟩ := List.mem_map.mp readOnly
    exact step_write h (writeReg_ignored v _ (of_decide_eq_true (List.mem_filter.mp mem).2))
  case cmd =>
    rintro rfl
    obtain ⟨t, next, ends⟩ := performCommand_ends v (s.withPending rest)
    have responses : t.responses = s.responses := ends.baseAddr_responses.2
    refine ⟨t, next, ?_⟩
    rw [step_write (r := .cmd) h next, ← responses]
    rfl

/-! ## Accesses by system address -/

theorem performSystemAccess_inside {s : State} {addr : Nat} {off : BitVec 8} (kind : Access) (size : Size)
    (h : windowOffset s.baseAddr addr = some off) :
    performSystemAccess addr kind size s = performTransaction ⟨kind, off, size⟩ s := by
  simp [performSystemAccess, h]

theorem performSystemAccess_outside {s : State} {addr : Nat} (kind : Access) (size : Size)
    (h : windowOffset s.baseAddr addr = none) : performSystemAccess addr kind size s = .next s := by
  simp [performSystemAccess, h]

/-- Settles O41: by its window offset a system access is a transaction, and without one it does nothing. -/
theorem systemAccessReachesWindowOnly : Obligations.SystemAccessReachesWindowOnly := by
  intro s addr kind size rest h
  rw [step_event h]
  refine ⟨fun off inside => ?inside, fun outside => ?outside⟩
  case inside =>
    subst inside
    exact performSystemAccess_inside (s := s.withPending rest) kind size (windowOffset_inside s.baseAddr off)
  case outside => exact performSystemAccess_outside kind size (windowOffset_outside outside)

end Sys2Proof.Machine
end

section
/-! SUPPORT. The encodings: the opcode map (R59), the sections of the engine's input (R65), and the fields of the
header (R61, R62) and of the frame (R63). -/

namespace Sys2Proof.Machine

/-! ## The opcode map -/

/-- A word decodes to a command exactly when it is that command's own word. -/
theorem decode_eq_ok_iff {w : Word} {i : Instr} : decode w = .ok i ↔ w = encode i := by
  constructor
  · intro h
    rw [decode_eq] at h
    split_ifs at h with h0 h1 h2
    · cases h; exact h0
    · cases h; exact h1
    · cases h; exact h2
  · rintro rfl
    exact decode_encode i

/-- A word is rejected exactly when it is none of the three rows' words. -/
theorem decode_eq_error_iff {w : Word} : (∃ r, decode w = .error r) ↔ w ≠ 0 ∧ w ≠ 1 ∧ w ≠ 2 := by
  constructor
  · rintro ⟨r, h⟩
    refine ⟨?_, ?_, ?_⟩ <;> rintro rfl <;> cases h
  · rintro ⟨h0, h1, h2⟩
    exact ⟨_, decode_illegal h0 h1 h2⟩

/-- Outside the three rows means: a reserved OP, or a reserved bit set (R59, R60). -/
theorem ne_row_words_iff (w : Word) : w ≠ 0 ∧ w ≠ 1 ∧ w ≠ 2 ↔ 3 ≤ w.toNat % 16 ∨ w.toNat / 16 ≠ 0 := by
  simp only [ne_eq, ← BitVec.toNat_inj, BitVec.ofNat_eq_ofNat, BitVec.toNat_ofNat]
  omega

/-- Settles O2: a word selects the row it encodes, and is illegal exactly when it encodes none. -/
theorem everyWordSelectsOneRow : Obligations.EveryWordSelectsOneRow := fun w =>
  ⟨decode_eq_ok_iff, decode_eq_ok_iff, decode_eq_ok_iff, decode_eq_error_iff,
    decode_eq_error_iff.trans (ne_row_words_iff w)⟩

/-! ## The sections -/

theorem testBit_and_onesMask (h k i : Nat) : (h &&& onesMask k).testBit i = (decide (i < k) && h.testBit i) := by
  rw [Nat.testBit_and, testBit_onesMask, Bool.and_comm]

theorem testBit_section1 (h k i : Nat) : (section1 h k).testBit i = (decide (i < k) && h.testBit i) :=
  testBit_and_onesMask h k i

theorem testBit_section2 (h k i : Nat) : (section2 h k).testBit i = (decide (i < k) && h.testBit (k + i)) := by
  rw [section2, testBit_and_onesMask, Nat.testBit_shiftRight]

theorem testBit_section3 (h k i : Nat) : (section3 h k).testBit i = (decide (i < k) && h.testBit (2 * k + i)) := by
  rw [section3, testBit_and_onesMask, Nat.testBit_shiftRight]

theorem testBit_section4 (h k i : Nat) : (section4 h k).testBit i = h.testBit (3 * k + i) :=
  Nat.testBit_shiftRight h

theorem section4_eq_zero {h k : Nat} (short : bitlen h ≤ 3 * k) : section4 h k = 0 :=
  Nat.shiftRight_eq_zero h (3 * k) (bitlen_le_iff.mp short)

/-- The sections together are all of h (R65): each quotient by 2^k is its low k bits and the next quotient. -/
theorem sections_recompose (h k : Nat) :
    h = section1 h k + section2 h k * 2 ^ k + section3 h k * 2 ^ (2 * k) + section4 h k * 2 ^ (3 * k) := by
  have pow2 : 2 ^ (2 * k) = 2 ^ k * 2 ^ k := by rw [two_mul, pow_add]
  have pow3 : 2 ^ (3 * k) = 2 ^ k * 2 ^ k * 2 ^ k := by rw [Nat.succ_mul 2 k, pow_add, pow2]
  have low : h % 2 ^ k + 2 ^ k * (h / 2 ^ k) = h := Nat.mod_add_div _ _
  have mid : h / 2 ^ k % 2 ^ k + 2 ^ k * (h / 2 ^ (2 * k)) = h / 2 ^ k := by
    rw [pow2, ← Nat.div_div_eq_div_mul]; exact Nat.mod_add_div _ _
  have high : h / 2 ^ (2 * k) % 2 ^ k + 2 ^ k * (h / 2 ^ (3 * k)) = h / 2 ^ (2 * k) := by
    rw [pow3, ← pow2, ← Nat.div_div_eq_div_mul]; exact Nat.mod_add_div _ _
  rw [section1_eq, section2_eq, section3_eq, section4_eq]
  calc h = h % 2 ^ k + 2 ^ k * (h / 2 ^ k % 2 ^ k
            + 2 ^ k * (h / 2 ^ (2 * k) % 2 ^ k + 2 ^ k * (h / 2 ^ (3 * k)))) := by rw [high, mid, low]
    _ = _ := by rw [pow2, pow3]; ring

/-- Settles O18: the engine's sections are the four bit ranges by definition; their bits and their sum follow. -/
theorem sectionsAreBitRanges : Obligations.SectionsAreBitRanges := fun h =>
  ⟨rfl, rfl, rfl, rfl, rfl, rfl, testBit_section1 h _, testBit_section2 h _, testBit_section3 h _,
    testBit_section4 h _, section4_eq_zero, sections_recompose h _⟩

/-! ## The header -/

/-- The leading bit, SRC_ADDR, the destination and the data at their positions in the header (R61). -/
theorem packHeader_fields (src : BitVec 8) {dst dat : Nat} (hd : dst < 256) (hx : dat < 256) :
    packHeader src ⟨dst, dat⟩ >>> 24 = 1 ∧ (packHeader src ⟨dst, dat⟩ >>> 16) % 256 = src.toNat ∧
    (packHeader src ⟨dst, dat⟩ >>> 8) % 256 = dst ∧ packHeader src ⟨dst, dat⟩ % 256 = dat := by
  have hs := src.isLt
  simp only [packHeader_eq src hd hx, Nat.shiftRight_eq_div_pow]
  omega

/-- Settles O24: a header is the sum of its fields, which gives its range, its bit length and its fields back. -/
theorem headerLayout : Obligations.HeaderLayout := by
  refine ⟨fun src dst dat hd hx => ?_, by decide⟩
  obtain ⟨lo, hi⟩ := packHeader_bounds src (o := ⟨dst, dat⟩) hd hx
  exact ⟨rfl, packHeader_eq src hd hx, lo, hi, bitlen_eq_succ lo hi, packHeader_fields src hd hx⟩

/-! ## The frame -/

/-- Above the checksum field, the bits of a frame are the bits of its header (R63). -/
theorem packFrame_shiftRight (p : CwPolicy) (h m : Nat) :
    packFrame h (checksumField p (engine h)) >>> ((checksumField p (engine h)).ffw + m) = h >>> m := by
  rw [packFrame_eq, Nat.shiftRight_add, Nat.shiftRight_eq_div_pow _ (ChecksumField.ffw _), Nat.add_comm,
    Nat.add_mul_div_right _ _ (by positivity), Nat.div_eq_of_lt (checksumField_cf_lt p h), Nat.zero_add]

theorem packFrame_mod (p : CwPolicy) (h : Nat) :
    packFrame h (checksumField p (engine h)) % 2 ^ (checksumField p (engine h)).ffw =
      (checksumField p (engine h)).cf := by
  rw [packFrame_eq, Nat.mul_add_mod_self_right, Nat.mod_eq_of_lt (checksumField_cf_lt p h)]

/-- A frame without a checksum field is its header (R63). -/
theorem packFrame_of_ffw_eq_zero {p : CwPolicy} {h : Nat} (empty : (checksumField p (engine h)).ffw = 0) :
    packFrame h (checksumField p (engine h)) = h := by
  have frame := packFrame_shiftRight p h 0
  rwa [empty] at frame

/-- Settles O25: the frame's bits above the checksum field are the header's, whose fields are those of R61. -/
theorem frameLayout : Obligations.FrameLayout := by
  intro b dst dat hd hx h f frame fw
  obtain ⟨lead, src, dest, data⟩ := packHeader_fields b.srcAddr hd hx
  have shift (m : Nat) : frame >>> (f.ffw + m) = h >>> m := packFrame_shiftRight b.cwPolicy h m
  have width : fw = 25 + f.ffw := frameBits_eq f
  refine ⟨width, rfl, checksumField_cf_lt _ _, packFrame_eq _ _, ?lead, ?src, ?dest, ?data, packFrame_mod _ _,
    packFrame_of_ffw_eq_zero⟩
  case lead => rw [show fw - 1 = f.ffw + 24 by omega, shift]; exact lead
  case src => rw [show fw - 9 = f.ffw + 16 by omega, shift]; exact src
  case dest => rw [show fw - 17 = f.ffw + 8 by omega, shift]; exact dest
  case data => exact (congrArg (· % 256) (shift 0)).trans data

end Sys2Proof.Machine
end

section
/-! SUPPORT. The checksum and its width (R76, R77), CKSUM (R71, R80), and the frame of the commands (R80, R93, R100). -/

namespace Sys2Proof.Machine

/-! ## The checksum and the output width -/

/-- The checksum is the sum with its low k bits complemented, bit by bit (R76). -/
theorem testBit_engine_ck (h i : Nat) :
    (engine h).ck.testBit i = ((engine h).sum.testBit i ^^ decide (i < (engine h).k)) := by
  rw [engine_ck, Nat.testBit_xor, testBit_onesMask]

/-- The carries above the k-bit mask stay (R76). -/
theorem engine_ck_shiftRight (h : Nat) : (engine h).ck >>> (engine h).k = (engine h).sum >>> (engine h).k := by
  apply Nat.eq_of_testBit_eq
  intro i
  have above : ¬ (engine h).k + i < (engine h).k := by omega
  simp only [Nat.testBit_shiftRight, testBit_engine_ck, above, decide_false, Bool.xor_false]

/-- Settles O19: the mask has exactly the k low bits, so the xor complements those and leaves the bits above. -/
theorem checksumComplementsLowBitsOnly : Obligations.ChecksumComplementsLowBitsOnly := by
  intro h _
  refine ⟨rfl, fun i low => ?_, engine_ck_shiftRight h⟩
  rw [testBit_engine_ck, decide_eq_true low, Bool.xor_true]

/-- Settles O20: the checksum is below 2^CW, and CW is positive, so below 2^(CW-1) it is shorter. -/
theorem outputWidthCoversChecksum : Obligations.OutputWidthCoversChecksum := by
  intro h pos
  refine ⟨rfl, bitlen_le_iff.mpr (engine_ck_lt h), fun short => ?_, rfl⟩
  exact (bitlen_le_iff.mpr short).trans_lt (Nat.sub_lt (engine_cw_pos pos) one_pos)

/-! ## CKSUM -/

/-- Section 4 holds what the three k-bit sections leave of h (R81 (a)). -/
theorem bitlen_section4_le (h k : Nat) : bitlen (section4 h k) ≤ bitlen h - 3 * k := by
  rw [bitlen_le_iff, section4_eq, Nat.div_lt_iff_lt_mul (by positivity), ← pow_add]
  exact (lt_two_pow_bitlen h).trans_le (Nat.pow_le_pow_right (by norm_num) (by omega))

/-- A section 4 is shorter than k bits when L is no multiple of 4 (R80). -/
theorem bitlen_section4_lt {h : Nat} (uneven : bitlen h % 4 ≠ 0) :
    bitlen (section4 h (sectionWidth (bitlen h))) < sectionWidth (bitlen h) := by
  have rest := bitlen_section4_le h (sectionWidth (bitlen h))
  unfold sectionWidth at rest ⊢
  omega

/-- CKSUM's next state when CK_IN holds n and the engine's result on n is r (R80, R122). -/
theorem exec_cksum_of_engine {s : State} {n : Nat} {r : EngineResult} (operand : s.ckIn.toNat = n) (pos : n ≠ 0)
    (run : engine n = r) :
    exec .cksum s = .next { s with
      cksum  := BitVec.ofNat 32 r.ck
      sum    := BitVec.ofNat 32 r.sum
      ckInfo := BitVec.ofNat 32 ((r.l <<< 16) ||| (r.k <<< 8) ||| r.cw)
      status := 0x00000101 } := by
  subst operand run
  rw [exec_cksum_pos pos, State.succeed, successRecord_cksum]
  rfl

/-- CKSUM's next state when CK_IN is 0 (R78, R121). -/
theorem exec_cksum_degenerate {s : State} (zero : s.ckIn.toNat = 0) :
    exec .cksum s = .next { s with status := 0x00000132 } := by
  rw [exec_cksum_zero zero, State.raiseError, errorRecord_degenerate]
  rfl

/-! The engine on R80's corner cases and on its example. -/

theorem engine_one : engine 1 = ⟨1, 1, 1, 0, 0, 0, 1, 0, 1⟩ := by decide

theorem engine_all_ones : engine 0xFFFFFFFF = ⟨32, 8, 255, 255, 255, 255, 1020, 771, 10⟩ := by decide

theorem engine_top_bit : engine 0x80000000 = ⟨32, 8, 0, 0, 0, 128, 128, 127, 8⟩ := by decide

theorem engine_example : engine 0x01010503 = ⟨25, 7, 3, 10, 4, 8, 25, 102, 7⟩ := by decide

/-- Settles O7: R79's formulas are the engine's fields, R80's corner cases are four runs of it, and 0 is DEGENERATE. -/
theorem cksumRunsEngineOnCkIn : Obligations.CksumRunsEngineOnCkIn := by
  refine ⟨decode_encode .cksum, fun s => ⟨exec_cksum_degenerate, fun pos => ?formulas, ?one, ?ones, ?top, ?sample,
    congrArg EngineResult.sum engine_one, congrArg EngineResult.cw engine_one, engine_all_ones, engine_top_bit,
    by decide⟩⟩
  case formulas =>
    simp only [Nat.one_shiftLeft]
    exact ⟨exec_cksum_of_engine rfl (by omega) rfl, engine_sum_le_1020 s.ckIn.isLt, bitlen_section4_lt⟩
  case one => exact fun eq => exec_cksum_of_engine (congrArg BitVec.toNat eq) (by decide) engine_one
  case ones => exact fun eq => exec_cksum_of_engine (congrArg BitVec.toNat eq) (by decide) engine_all_ones
  case top => exact fun eq => exec_cksum_of_engine (congrArg BitVec.toNat eq) (by decide) engine_top_bit
  case sample => exact fun eq => exec_cksum_of_engine (congrArg BitVec.toNat eq) (by decide) engine_example

/-- Settles O16: whether CKSUM is degenerate, and the engine result it writes otherwise, are read off CK_IN. -/
theorem cksumDependsOnCkInAlone : Obligations.CksumDependsOnCkInAlone := by
  intro s s' same
  by_cases zero : s.ckIn.toNat = 0
  case pos =>
    refine ⟨_, _, exec_cksum_degenerate zero, exec_cksum_degenerate (same ▸ zero), rfl, fun nonzero => ?_⟩
    exact absurd (BitVec.eq_of_toNat_eq zero) nonzero
  case neg =>
    have operand : s'.ckIn.toNat = s.ckIn.toNat := congrArg BitVec.toNat same.symm
    exact ⟨_, _, exec_cksum_of_engine rfl zero rfl, exec_cksum_of_engine operand zero rfl, rfl,
      fun _ => ⟨rfl, rfl, rfl⟩⟩

/-! ## The frame of the commands -/

/-- A record in STATUS, of an error or a success, writes STATUS alone (R121, R122). -/
theorem readReg_withStatus (s : State) (v : Word) {r : Reg} (other : Reg.status ≠ r) :
    readReg (s.withStatus v) r = readReg s r := by
  cases r
  case status => exact absurd rfl other
  all_goals rfl

/-- A completed CKSUM keeps HEADER and the frame registers, whatever result it reports (R80, D21). -/
theorem readReg_withEngine_succeed (s : State) (e : EngineResult) (w : Word) {r : Reg}
    (other : r ∉ [Reg.cksum, .sum, .ckInfo, .status]) : readReg ((s.withEngine e).succeed w) r = readReg s r := by
  cases r
  case cksum | sum | ckInfo | status => simp at other
  all_goals rfl

/-- A completed ENCODE keeps the operand registers, CONFIG and CMD (R93). -/
theorem readReg_withEncoding (s : State) (h : Nat) {r : Reg}
    (other : r ∉ [Reg.header, .cksum, .sum, .ckInfo, .frameLo, .frameHi, .frameWidth, .status]) :
    readReg (s.withEncoding h) r = readReg s r := by
  cases r
  case header | cksum | sum | ckInfo | frameLo | frameHi | frameWidth | status => simp at other
  all_goals rfl

/-- No way a command can end touches the build, BASE_ADDR or the outside world. -/
theorem CommandEnd.keeps_outside {i : Instr} {s t : State} (ends : CommandEnd s i t) :
    t.build = s.build ∧ t.baseAddr = s.baseAddr ∧ t.pending = s.pending ∧ t.responses = s.responses ∧
    t.wireLeft = s.wireLeft ∧ t.wireDone = s.wireDone := by
  cases ends with
  | nop | degenerate | cksum | rangeDest | rangeData | encode => exact ⟨rfl, rfl, rfl, rfl, rfl, rfl⟩

/-- Settles O12: an error writes STATUS, which both CKSUM and ENCODE list, and a result only what its command lists. -/
theorem commandsWriteOnlyTheirRegisters : Obligations.CommandsWriteOnlyTheirRegisters := by
  intro i s t next
  have ends := exec_cases next
  refine ⟨fun r other => ?_, ends.keeps_outside⟩
  cases ends with
  | nop => rfl
  | degenerate | rangeDest | rangeData => exact readReg_withStatus s _ (ne_of_mem_of_not_mem (by decide) other)
  | cksum => exact readReg_withEngine_succeed s _ _ other
  | encode => exact readReg_withEncoding s _ other

end Sys2Proof.Machine
end

section
/-! SUPPORT. ENCODE (R84 to R92): what it writes, on which operands it depends, and the frame it leaves, as the frame
registers give it back. -/

namespace Sys2Proof.Machine

/-! ## ENCODE's next state -/

theorem exec_encode_rangeDest {s : State} (reject : s.build.rangePolicy = .reject) (dest : 256 ≤ s.dest.toNat) :
    exec .encode s = .next { s with status := 0x00000212 } := by
  rw [exec_encode_dest reject dest, State.raiseError, errorRecord_rangeDest]
  rfl

theorem exec_encode_rangeData {s : State} (reject : s.build.rangePolicy = .reject) (dest : s.dest.toNat < 256)
    (data : 256 ≤ s.data.toNat) : exec .encode s = .next { s with status := 0x00000222 } := by
  rw [exec_encode_data reject dest data, State.raiseError, errorRecord_rangeData]
  rfl

/-- ENCODE's next state when the operands pack to header n, the engine's result on n is r and the policy's checksum
field is f (R89, R122). -/
theorem exec_encode_of_engine {s : State} {n : Nat} {r : EngineResult} {f : ChecksumField} (runs : encodeRuns s)
    (header : headerOf s = n) (run : engine n = r) (field : checksumField s.build.cwPolicy r = f) :
    exec .encode s = .next { s with
      header     := BitVec.ofNat 32 n
      cksum      := BitVec.ofNat 32 r.ck
      sum        := BitVec.ofNat 32 r.sum
      ckInfo     := BitVec.ofNat 32 ((r.l <<< 16) ||| (r.k <<< 8) ||| r.cw)
      frameLo    := BitVec.ofNat 32 (packFrame n f % 2 ^ 32)
      frameHi    := BitVec.ofNat 32 (packFrame n f >>> 32)
      frameWidth := BitVec.ofNat 32 (frameBits f)
      status     := 0x00000201 } := by
  subst header run field
  rw [exec_encode_of_runs runs, State.withEncoding, State.succeed, successRecord_encode]
  rfl

/-- Operands that fit their fields are accepted under either policy, and packed as they are (R85, R86). -/
theorem encodeRuns_of_operands {s : State} {src : BitVec 8} {dest data : Word} (hs : s.build.srcAddr = src)
    (hd : s.dest = dest) (hx : s.data = data) (fits : dest.toNat < 256 ∧ data.toNat < 256) :
    encodeRuns s ∧ headerOf s = packHeader src ⟨dest.toNat, data.toNat⟩ := by
  subst hs hd hx
  exact ⟨.inr fits, by rw [headerOf, Nat.mod_eq_of_lt fits.1, Nat.mod_eq_of_lt fits.2]⟩

/-- R89's two operand forms, by policy, are one: accepted operands, taken by their low bytes. -/
theorem encodeRuns_of_operand_form {s : State} {dst dat : Nat}
    (form : (s.build.rangePolicy = .reject ∧ s.dest.toNat < 256 ∧ s.data.toNat < 256 ∧
        dst = s.dest.toNat ∧ dat = s.data.toNat) ∨
      (s.build.rangePolicy = .mask ∧ dst = s.dest.toNat % 256 ∧ dat = s.data.toNat % 256)) :
    encodeRuns s ∧ headerOf s = packHeader s.build.srcAddr ⟨dst, dat⟩ := by
  rcases form with ⟨-, hd, hx, rfl, rfl⟩ | ⟨mask, rfl, rfl⟩
  · exact ⟨.inr ⟨hd, hx⟩, by rw [headerOf, Nat.mod_eq_of_lt hd, Nat.mod_eq_of_lt hx]⟩
  · exact ⟨.inl mask, rfl⟩

theorem engine_cw_ge_of_header {h : Nat} (lo : 2 ^ 24 ≤ h) (hi : h < 2 ^ 25) : 7 ≤ (engine h).cw :=
  (engine_k_of_header lo hi).symm.le.trans (engine_k_le_cw h)

/-! The engine on the headers of R89's corner cases, SRC_ADDR being 1. -/

theorem engine_header_0_0 : engine 0x01010000 = ⟨25, 7, 0, 0, 4, 8, 12, 115, 7⟩ := by decide

theorem engine_header_255_255 : engine 0x0101FFFF = ⟨25, 7, 127, 127, 7, 8, 269, 370, 9⟩ := by decide

theorem engine_header_0_115 : engine 0x01010073 = ⟨25, 7, 115, 0, 4, 8, 127, 0, 7⟩ := by decide

/-- Settles O8: R89's formulas are the header, the engine's fields and the policy's checksum field, and its corner cases
are four runs of the engine. -/
theorem encodeBuildsFrame : Obligations.EncodeBuildsFrame := by
  refine ⟨decode_encode .encode, fun s => ⟨exec_encode_rangeDest, exec_encode_rangeData, ?formulas, ?sample, ?zeros,
    ?ones, ?noChecksum⟩⟩
  case formulas =>
    intro dst dat form
    obtain ⟨runs, header⟩ := encodeRuns_of_operand_form form
    obtain ⟨lo, hi⟩ := headerOf_bounds s
    have cw := engine_cw_ge_of_header lo hi
    rw [header] at cw
    have next := exec_encode_of_engine runs header rfl rfl
    simp only [Nat.one_shiftLeft]
    refine ⟨next.trans ?_, cw⟩
    cases s.build.cwPolicy <;> rfl
  case sample =>
    intro src policy dest data
    obtain ⟨runs, header⟩ := encodeRuns_of_operands src dest data (by decide)
    exact exec_encode_of_engine (f := ⟨7, 102⟩) runs header engine_example (by rw [policy]; rfl)
  case zeros =>
    intro src dest data
    obtain ⟨runs, header⟩ := encodeRuns_of_operands src dest data (by decide)
    exact ⟨_, exec_encode_of_engine runs header engine_header_0_0 rfl, rfl, rfl, rfl, rfl⟩
  case ones =>
    intro src policy dest data
    obtain ⟨runs, header⟩ := encodeRuns_of_operands src dest data (by decide)
    exact ⟨_, exec_encode_of_engine (f := ⟨9, 370⟩) runs header engine_header_255_255 (by rw [policy]; rfl), rfl, rfl,
      rfl, show (2 : Word) ≠ 0 by decide⟩
  case noChecksum =>
    intro src policy dest data
    obtain ⟨runs, header⟩ := encodeRuns_of_operands src dest data (by decide)
    exact ⟨_, exec_encode_of_engine (n := 0x01010073) (f := ⟨0, 0⟩) runs header engine_header_0_115
      (by rw [policy]; rfl), rfl, rfl, rfl, frameValue_of_eq (frame := 0x01010073) (by decide) rfl rfl⟩

/-! ## The operands ENCODE depends on -/

theorem encodeRuns_iff_of_reject {s : State} (reject : s.build.rangePolicy = .reject) :
    encodeRuns s ↔ s.dest.toNat < 256 ∧ s.data.toNat < 256 := or_iff_right (by simp [reject])

/-- Settles O14: whether and with which header ENCODE runs is read off the build, DEST and DATA, and so is the rest. -/
theorem encodeDependsOnOperandsAlone : Obligations.EncodeDependsOnOperandsAlone := by
  intro s s' build dest data
  rcases encode_operand_cases s with runs | ⟨reject, big⟩ | ⟨reject, small, big⟩
  · have runs' : encodeRuns s' := by rwa [encodeRuns, build, dest, data] at runs
    have header : headerOf s' = headerOf s := by rw [headerOf, headerOf, build, dest, data]
    exact ⟨_, _, exec_encode_of_engine runs rfl rfl rfl, exec_encode_of_engine runs' header rfl (by rw [build]), rfl,
      fun _ => ⟨rfl, rfl, rfl, rfl, rfl, rfl, rfl⟩⟩
  · exact ⟨_, _, exec_encode_rangeDest reject big, exec_encode_rangeDest (build ▸ reject) (dest ▸ big), rfl,
      fun runs => absurd ((encodeRuns_iff_of_reject reject).mp runs).1 big.not_gt⟩
  · exact ⟨_, _, exec_encode_rangeData reject small big,
      exec_encode_rangeData (build ▸ reject) (dest ▸ small) (data ▸ big), rfl,
      fun runs => absurd ((encodeRuns_iff_of_reject reject).mp runs).2 big.not_gt⟩

theorem and_0xFF_toNat (v : Word) : (v &&& 0xFF).toNat = v.toNat % 256 :=
  (BitVec.toNat_and v 0xFF).trans (Nat.and_two_pow_sub_one_eq_mod v.toNat 8)

/-- The header reads DEST and DATA by their low bytes (R86). -/
theorem headerOf_lowBytes (s : State) :
    headerOf { s with dest := s.dest &&& 0xFF, data := s.data &&& 0xFF } = headerOf s := by
  simp only [headerOf, and_0xFF_toNat, Nat.mod_mod]

/-- HEADER after ENCODE, as the sum of its fields (R62, R89). -/
theorem headerOf_eq (s : State) :
    headerOf s = 2 ^ 24 + s.build.srcAddr.toNat * 2 ^ 16 + s.dest.toNat % 256 * 2 ^ 8 + s.data.toNat % 256 :=
  packHeader_eq _ (Nat.mod_lt _ (by norm_num)) (Nat.mod_lt _ (by norm_num))

theorem withEncoding_header_toNat (s : State) : (s.withEncoding (headerOf s)).header.toNat = headerOf s :=
  (holdsFrame_encode s).header_toNat (Nat.mod_lt _ (by norm_num)) (Nat.mod_lt _ (by norm_num))

/-- Settles O10: MASK accepts any operands, and the reduced ones pack to the same header. -/
theorem maskedEncodeUsesLowBytes : Obligations.MaskedEncodeUsesLowBytes := by
  intro s mask
  refine ⟨_, _, exec_encode_of_runs (.inl mask), exec_encode_of_runs (.inl mask), ?same, ?status, ?header⟩
  case same => rw [headerOf_lowBytes]; rfl
  case status => exact successRecord_encode
  case header => rw [withEncoding_header_toNat, headerOf_eq]

/-! ## The frame, read back from the frame registers -/

/-- The highest bit of a number's bit length is set. -/
theorem testBit_bitlen_sub_one {v : Nat} (len : 0 < bitlen v) : v.testBit (bitlen v - 1) = true := by
  refine Nat.testBit_of_two_pow_le_and_two_pow_add_one_gt (lt_bitlen_iff.mp (by omega)) ?_
  rw [Nat.sub_add_cancel len]
  exact lt_two_pow_bitlen v

/-- The frame registers against the engine's run on HEADER: the width, and the frame's two parts (R63, R95). -/
structure FrameChecksOut (s : State) (f : ChecksumField) : Prop where
  width  : s.frameWidth.toNat = 25 + f.ffw
  header : frameValue s >>> f.ffw = s.header.toNat
  field  : frameValue s % 2 ^ f.ffw = f.cf
  bitlen : bitlen (frameValue s) = s.frameWidth.toNat

/-- Frame registers that hold an encoding give back the header and the checksum field of it. -/
theorem holdsFrame.checksOut {s : State} {o : HeaderOperands} (hd : o.dst < 256) (hx : o.dat < 256)
    (hf : holdsFrame s o) : FrameChecksOut s (checksumField s.build.cwPolicy (engine s.header.toNat)) := by
  have frame := packFrame_eq s.build.cwPolicy (packHeader s.build.srcAddr o)
  have bits := hf.bitlen_frameValue hd hx
  have header := hf.header_toNat hd hx
  obtain ⟨-, value, width⟩ := hf
  rw [← frame] at value
  rw [← header] at value width
  refine ⟨width, ?_, ?_, bits⟩
  · rw [value]; exact packFrame_shiftRight _ _ 0
  · rw [value]; exact packFrame_mod _ _

theorem encode_checksOut (s : State) : FrameChecksOut (s.withEncoding (headerOf s))
    (checksumField s.build.cwPolicy (engine (s.withEncoding (headerOf s)).header.toNat)) :=
  (holdsFrame_encode s).checksOut (Nat.mod_lt _ (by norm_num)) (Nat.mod_lt _ (by norm_num))

theorem FrameChecksOut.ffw_eq {s : State} {f : ChecksumField} (c : FrameChecksOut s f) :
    s.frameWidth.toNat - 25 = f.ffw := by
  rw [c.width, Nat.add_sub_cancel_left]

/-- Settles O27: FRAME_WIDTH - 25 is the width of the checksum field, above which the frame is the header. -/
theorem frameReproducesHeader : Obligations.FrameReproducesHeader := by
  intro s runs
  have frame := encode_checksOut s
  refine ⟨_, exec_encode_of_runs runs, ?top, withEncoding_header_toNat s, frame.bitlen, ?lead⟩
  case top => rw [frame.ffw_eq]; exact frame.header
  case lead =>
    rw [← frame.bitlen]
    exact testBit_bitlen_sub_one (by rw [frame.bitlen, frame.width]; omega)

/-- CKSUM after ENCODE is the checksum of HEADER, whole (R31, R93). -/
theorem encode_cksum_toNat (s : State) : (s.withEncoding (headerOf s)).cksum.toNat =
    (engine (s.withEncoding (headerOf s)).header.toNat).ck :=
  (reportsEngine_encode s).cksum_toNat (BitVec.isLt _)

theorem checksumField_nominal (r : EngineResult) : checksumField .nominal r = ⟨6, r.ck % 2 ^ 6⟩ := rfl

theorem checksumField_natural (r : EngineResult) : checksumField .natural r = ⟨bitlen r.ck, r.ck⟩ := rfl

/-- Settles O28: the NOMINAL field is 6 bits wide, which leaves FRAME_HI empty, and CW is at least k = 7. -/
theorem nominalFrameIs31Bits : Obligations.NominalFrameIs31Bits := by
  intro s nominal runs
  have frame := encode_checksOut s
  have ck := encode_cksum_toNat s
  have cw : 7 ≤ (engine (s.withEncoding (headerOf s)).header.toNat).cw := by
    obtain ⟨lo, hi⟩ := headerOf_bounds s
    rw [withEncoding_header_toNat]
    exact engine_cw_ge_of_header lo hi
  refine ⟨_, exec_encode_of_runs runs, ?_⟩
  rw [nominal, checksumField_nominal, ← ck] at frame
  generalize s.withEncoding (headerOf s) = t at frame cw ⊢
  have width : t.frameWidth.toNat = 31 := frame.width
  have field : frameValue t % 2 ^ 6 = t.cksum.toNat % 2 ^ 6 := frame.field
  have lt : frameValue t < 2 ^ 31 := bitlen_le_iff.mp (frame.bitlen.trans width).le
  have value := frameValue_eq t
  have high : t.frameHi.toNat = 0 := by omega
  have low : t.frameLo.toNat % 2 ^ 6 = t.cksum.toNat % 2 ^ 6 := by omega
  exact ⟨BitVec.eq_of_toNat_eq width, BitVec.eq_of_toNat_eq high, field, frame.header, BitVec.eq_of_toNat_eq low, cw⟩

/-- Settles O29: the NATURAL field is the checksum at its bit length, 0 bits for operands 0 and 115 and 9 for 255 and
255. -/
theorem naturalFrameWidths : Obligations.NaturalFrameWidths := by
  refine ⟨fun s natural runs => ?field, ?narrowest, ?widest⟩
  case field =>
    obtain ⟨lo, hi⟩ := headerOf_bounds s
    have le := checksumField_ffw_le lo hi .natural
    have ck := encode_cksum_toNat s
    have frame := encode_checksOut s
    rw [natural, checksumField_natural, ← ck] at frame
    rw [checksumField_natural, ← withEncoding_header_toNat, ← ck] at le
    exact ⟨_, exec_encode_of_runs runs, frame.width, le, by rw [frame.width]; omega, by rw [frame.width]; omega,
      frame.field, frame.header⟩
  case narrowest =>
    exact ⟨((State.resetOf ⟨1, .natural, .reject⟩ 0).withDest 0).withData 115, _, rfl, .inr (by decide),
      exec_encode_of_engine (.inr (by decide)) rfl engine_header_0_115 rfl, rfl⟩
  case widest =>
    exact ⟨((State.resetOf ⟨1, .natural, .reject⟩ 0).withDest 255).withData 255, _, rfl, .inr (by decide),
      exec_encode_of_engine (.inr (by decide)) rfl engine_header_255_255 rfl, rfl⟩

/-! ## A reported ENCODE -/

/-- Of the legal values of STATUS only ENCODE's success record says VALID and names ENCODE (R39, R122). -/
theorem statusLegal.eq_of_encode_reported {v : Word} (legal : statusLegal v) (valid : statusValid v = true)
    (lastop : statusLastop v = 2) : v = 0x201 := by
  rcases legal with rfl | rfl | rfl | rfl | rfl | rfl | ⟨op, lt, rfl⟩
  case inr.inr.inl => rfl
  case inr.inr.inr.inr.inr.inr =>
    have invalid : ∀ op < 16, statusValid (BitVec.ofNat 32 (op * 256 + 0x42)) = false := by decide
    cases (invalid op lt).symm.trans valid
  case inr.inl => revert lastop; decide
  all_goals cases valid

/-- A state that reports an ENCODE holds the encoding of some operands, and the engine's result on its HEADER. -/
theorem Inv.encode_reported_frame {s : State} (hi : Inv s) (reported : s.status = 0x201) :
    (∃ o : HeaderOperands, o.dst < 256 ∧ o.dat < 256 ∧ holdsFrame s o) ∧ reportsEngine s s.header.toNat := by
  obtain ⟨nonzero, report⟩ := hi.encode_reported reported
  exact ⟨hi.frame_legal.resolve_left fun ⟨_, _, _, zero⟩ => nonzero zero, report⟩

/-- Settles O58: STATUS has ENCODE's success record, so the invariant gives a whole encoding and the engine's result. -/
theorem reportedFrameChecksOut : Obligations.ReportedFrameChecksOut := by
  intro s hi valid lastop
  obtain ⟨⟨o, hd, hx, hf⟩, report⟩ :=
    hi.encode_reported_frame (hi.status_legal.eq_of_encode_reported valid lastop)
  have frame := hf.checksOut hd hx
  refine ⟨?header, ?field, frame.width, frame.bitlen, report.cksum_toNat (BitVec.isLt _),
    report.sum_toNat (BitVec.isLt _), ?src⟩
  case header => rw [frame.ffw_eq]; exact frame.header
  case field => rw [frame.ffw_eq]; exact frame.field
  case src =>
    rw [hf.header_toNat hd hx]
    exact (packHeader_fields s.build.srcAddr hd hx).2.1

end Sys2Proof.Machine
end

section
/-! SUPPORT. The control family: the step a CMD write takes (R99), NOP (R100), and an illegal command word (R101). -/

namespace Sys2Proof.Machine

/-- A CMD write performs its word's command on the state with the event taken off, then answers OKAY (R45, R99). -/
theorem step_cmdWrite {s : State} {w : Word} {rest : List Event} (h : s.pending = cmdWrite w :: rest) :
    step s = respond writeOkay (performCommand w (s.withPending rest)) :=
  (step_event h).trans (performTransaction_write _ .cmd w)

/-- Settles O4: the decoded word is its command's own, so the CMD write performs exec of it. -/
theorem stepRunsDecodedCommand : Obligations.StepRunsDecodedCommand := by
  intro s w i rest h decoded
  obtain rfl := decode_eq_ok_iff.mp decoded
  rw [step_cmdWrite h, performCommand_encode, State.withPending]
  cases exec i { s with pending := rest } with
  | next t | fault f | refused r => rfl

/-- Settles O6: a word with a reserved bit set is none of the three row words. -/
theorem nopWritesNothing : Obligations.NopWritesNothing :=
  ⟨exec_nop, decode_encode .nop, fun w _ rsvd => decode_eq_error_iff.mpr ((ne_row_words_iff w).mpr (.inr rsvd))⟩

/-- The error record's ERRCODE is the low four bits of the error's code (R26, R121). -/
theorem errorRecord_errcode (w : Word) (c : ErrorCode) : statusErrcode (errorRecord w c) = c.code.setWidth 4 := by
  obtain ⟨-, -, -, code⟩ := errorRecord_fields w c
  rw [← code, BitVec.setWidth_setWidth_of_le _ (by norm_num), BitVec.setWidth_eq]

/-- Settles O31: an illegal word leaves the record of ILLEGAL_COMMAND in STATUS, and the answer is OKAY. -/
theorem illegalWordIsRecorded : Obligations.IllegalWordIsRecorded := by
  intro s w rest h0 h1 h2 h
  obtain ⟨err, valid, lastop, -⟩ := errorRecord_fields w .illegalCommand
  refine ⟨errorRecord w .illegalCommand, ?next, errorRecord_ofNat w .illegalCommand, valid, err,
    errorRecord_errcode w .illegalCommand, lastop, ?_, ?_, ?_⟩
  case next =>
    rw [step_cmdWrite h, performCommand_illegal _ h0 h1 h2]
    rfl
  all_goals rintro rfl; decide

end Sys2Proof.Machine
end

section
/-! SUPPORT. The wire contract: the event list of an emission (R105 to R110), the hand-over and the serializer's ticks
(R104, R109), and what every step keeps of the wire (R111). -/

namespace Sys2Proof.Machine

/-! ## One run -/

/-- A run is its bits from the highest down, each before its wait of T (R105, R106). -/
theorem runEvents_eq_flatMap (frame n : Nat) : runEvents frame n =
    (List.range n).reverse.flatMap fun i => [WireEvent.emit (frame.testBit i), WireEvent.wait 1] := by
  induction n with
  | zero => rfl
  | succ n ih => simp [List.range_succ, ih]

theorem runEvents_length (frame n : Nat) : (runEvents frame n).length = 2 * n := by
  induction n with
  | zero => rfl
  | succ n ih => rw [runEvents_succ, List.length_cons, List.length_cons, ih, Nat.mul_succ]

theorem filterMap_bit_wait (n : Nat) (l : List WireEvent) :
    (WireEvent.wait n :: l).filterMap WireEvent.bit = l.filterMap WireEvent.bit :=
  List.filterMap_cons_none (bit_wait n)

/-- The bits a run puts on the wire, most significant first (R105). -/
theorem runEvents_bits (frame n : Nat) :
    (runEvents frame n).filterMap WireEvent.bit = (List.range n).reverse.map fun i => frame.testBit i := by
  induction n with
  | zero => rfl
  | succ n ih => simp [filterMap_bit_wait, List.range_succ, ih]

theorem runEvents_count_wait_one (frame n : Nat) : (runEvents frame n).count (.wait 1) = n := by
  induction n with
  | zero => rfl
  | succ n ih => simp [ih]

theorem runEvents_count_pause (frame n : Nat) : (runEvents frame n).count (.wait 10) = 0 := by
  induction n with
  | zero => rfl
  | succ n ih => simp [ih]

theorem durationT_runEvents (frame n : Nat) : durationT (runEvents frame n) = n := by
  induction n with
  | zero => rfl
  | succ n ih => simp [durationT_cons, ih, Nat.add_comm]

/-! ## The emission -/

/-- Settles O47: five runs with four pauses between them, each run bit by bit. -/
theorem emissionIsTheEventList : Obligations.EmissionIsTheEventList := by
  intro frame fw
  simp only [← runEvents_eq_flatMap, emission_eq, List.append_assoc, List.cons_append, List.nil_append]

theorem emission_length (frame n : Nat) : (emission frame n).length = 10 * n + 4 := by
  simp only [emission_eq, List.length_append, List.length_cons, runEvents_length]
  omega

/-- An emission puts the bits of a run on the wire five times, the pauses none (R107). -/
theorem emission_bits (frame n : Nat) : (emission frame n).filterMap WireEvent.bit =
    (List.replicate 5 ((List.range n).reverse.map fun i => frame.testBit i)).flatten := by
  simp [emission_eq, filterMap_bit_wait, runEvents_bits, List.replicate_succ]

theorem durationT_emission (frame n : Nat) : durationT (emission frame n) = 5 * n + 40 := by
  simp only [emission_eq, durationT_append, durationT_cons, durationT_runEvents, units_wait]
  omega

theorem durationSeconds_emission (frame n : Nat) :
    durationSeconds (emission frame n) = (5 * n + 40 : Rat) * (1 / 1200) := by
  rw [durationSeconds, durationT_emission]
  push_cast [baudRate]
  ring

/-- Settles O48: five times what one run has, and the four pauses. -/
theorem emissionCounts : Obligations.EmissionCounts := by
  refine ⟨fun frame n => ⟨?bits, ?waits, ?pauses, durationT_emission frame n, durationSeconds_emission frame n⟩,
    ?seconds⟩
  case bits =>
    simp only [emission_bits, List.length_flatten, List.map_replicate, List.length_map, List.length_reverse,
      List.length_range, List.sum_replicate, smul_eq_mul, Nat.mul_comm]
  case waits =>
    have pause : WireEvent.wait 10 ≠ .wait 1 := by decide
    simp only [emission_eq, List.count_append, List.count_cons_of_ne pause, runEvents_count_wait_one]
    omega
  case pauses => simp [emission_eq, runEvents_count_pause]
  case seconds =>
    rw [durationSeconds_emission]
    norm_num

/-- The bits from n - 1 down begin with bit n - 1. -/
theorem head?_bits (frame : Nat) {n : Nat} (pos : 0 < n) :
    ((List.range n).reverse.map fun i => frame.testBit i).head? = some (frame.testBit (n - 1)) := by
  obtain ⟨m, rfl⟩ := Nat.exists_eq_succ_of_ne_zero pos.ne'
  simp [List.range_succ]

/-- Settles O49: FRAME_WIDTH is the frame's bit length, so the first of its bits is 1. -/
theorem emissionCarriesFrameBits : Obligations.EmissionCarriesFrameBits := by
  intro s runs
  have frame := encode_checksOut s
  refine ⟨_, exec_encode_of_runs runs, frame.bitlen, ?first, by simp, emission_bits _ _⟩
  case first =>
    have pos : 0 < (s.withEncoding (headerOf s)).frameWidth.toNat := by rw [frame.width]; omega
    rw [head?_bits _ pos, ← frame.bitlen, testBit_bitlen_sub_one (frame.bitlen ▸ pos)]

/-! ## Hand-over and tick, as steps -/

/-- With no emission in progress and a frame held, a hand-over starts the frame's emission (R104). -/
theorem step_handOver {s : State} {rest : List Event} (h : s.pending = .handOver :: rest) (idle : s.wireLeft = [])
    (frame : s.frameWidth ≠ 0) :
    step s = .next ((s.withPending rest).withEmission (emission (frameValue s) s.frameWidth.toNat)) :=
  (step_event h).trans ((if_neg (not_not.mpr idle)).trans (if_neg frame))

/-- Settles O50: the three answers of a hand-over, by the emission in progress and by FRAME_WIDTH. -/
theorem handOverStartsEmission : Obligations.HandOverStartsEmission := by
  refine fun s rest h => ⟨fun idle frame => ?starts, fun busy => ?busy, fun idle empty => ?noFrame⟩
  case starts =>
    rw [step_handOver h idle frame, frameValue_eq]
    rfl
  case busy => exact (step_event h).trans (if_pos busy)
  case noFrame => exact (step_event h).trans ((if_neg (not_not.mpr idle)).trans (if_pos empty))

theorem performWireTick_idle {s : State} (idle : s.wireLeft = []) : performWireTick s = .next s := by
  rw [performWireTick, idle]

theorem performWireTick_first {s : State} {e : WireEvent} {l : List WireEvent} (first : s.wireLeft = e :: l) :
    performWireTick s = .next (s.withEmitted e l) := by
  rw [performWireTick, first]

/-- A tick moves the first event left to the end of what has been emitted (R109). -/
theorem step_wireTick {s : State} {rest : List Event} {e : WireEvent} {l : List WireEvent}
    (h : s.pending = .wireTick :: rest) (first : s.wireLeft = e :: l) :
    step s = .next ((s.withPending rest).withEmitted e l) :=
  (step_event h).trans (performWireTick_first first)

/-- Settles O52: a tick performs the first event left, or takes nothing but itself off the list. -/
theorem wireTickPerformsNextEvent : Obligations.WireTickPerformsNextEvent := fun _ _ h =>
  ⟨fun _ _ first => step_wireTick h first, fun idle => (step_event h).trans (performWireTick_idle idle)⟩

/-! ## The whole sequence -/

theorem CmdEnd.keeps_wire {s u : State} {w : Word} (h : CmdEnd s w u) :
    u.wireLeft = s.wireLeft ∧ u.wireDone = s.wireDone := by
  cases h.effect with
  | nop | error | cksum | encode => exact ⟨rfl, rfl⟩

theorem WriteEnd.keeps_wire {s t : State} {v : Word} {r : Reg} (h : WriteEnd s v r t) :
    t.wireLeft = s.wireLeft ∧ t.wireDone = s.wireDone := by
  cases h with
  | cmd ends => exact ends.keeps_wire
  | dest | data | ckIn | ignored => exact ⟨rfl, rfl⟩

/-- No host transaction touches the wire (R111). -/
theorem TransactionEnd.keeps_wire {s t : State} {x : Transaction} (h : TransactionEnd s x t) :
    t.wireLeft = s.wireLeft ∧ t.wireDone = s.wireDone := by
  cases h with
  | refused | read => exact ⟨rfl, rfl⟩
  | write _ _ _ ends => exact ends.keeps_wire

/-- What is left in s is moved, from its front, to the end of what is done in t: the wire of a step that starts no
emission. -/
def MovesWire (s t : State) (moved : List WireEvent) : Prop :=
  s.wireLeft = moved ++ t.wireLeft ∧ t.wireDone = s.wireDone ++ moved

theorem MovesWire.of_kept {s t : State} (kept : t.wireLeft = s.wireLeft ∧ t.wireDone = s.wireDone) :
    MovesWire s t [] := ⟨kept.1.symm, by rw [kept.2, List.append_nil]⟩

theorem MovesWire.keeps_sequence {s t : State} {moved : List WireEvent} (m : MovesWire s t moved) :
    t.wireDone ++ t.wireLeft = s.wireDone ++ s.wireLeft := by
  obtain ⟨left, done⟩ := m
  rw [left, done, List.append_assoc]

/-- Of all events only a hand-over does anything to the wire but move events from left to done (R111). -/
theorem EventEnd.movesWire {s t : State} {e : Event} (h : EventEnd s e t) (other : e ≠ .handOver) :
    ∃ moved, MovesWire s t moved := by
  cases h with
  | transaction _ ends => exact ⟨[], .of_kept ends.keeps_wire⟩
  | inside _ _ _ _ _ ends => exact ⟨[], .of_kept ends.keeps_wire⟩
  | outside | reset | wireIdle => exact ⟨[], .of_kept ⟨rfl, rfl⟩⟩
  | wireTick e l first => exact ⟨[e], first, rfl⟩
  | handOver => exact absurd rfl other

/-- Settles O51: an event other than a hand-over moves events only, and a hand-over finds none left. -/
theorem wireSequenceIsKept : Obligations.WireSequenceIsKept := by
  intro s t next
  rcases step_cases next with ⟨empty, rfl⟩ | ⟨e, rest, pending, ends⟩
  · exact ⟨⟨[], (List.append_nil _).symm⟩, fun _ => rfl, fun ⟨_, h⟩ => by cases empty.symm.trans h⟩
  · by_cases he : e = .handOver
    · subst he
      cases ends with
      | handOver idle frame =>
        have nothing : s.wireLeft = [] := idle
        refine ⟨⟨[], (List.append_nil _).symm⟩, fun other => absurd pending (other rest), fun _ => ?_⟩
        rw [nothing, List.append_nil]
        rfl
    · obtain ⟨moved, m⟩ := ends.movesWire he
      refine ⟨⟨moved, m.2⟩, fun _ => m.keeps_sequence, fun ⟨_, h⟩ => absurd ?_ he⟩
      exact List.head_eq_of_cons_eq (pending.symm.trans h)

/-! ## A whole emission -/

/-- As many ticks as events are left put all of them on the wire (R109, R111). -/
theorem run_wireTicks (rest : List Event) (l : List WireEvent) (s : State) :
    Sys2Proof.core.run l.length ((s.withPending (List.replicate l.length .wireTick ++ rest)).withEmission l) =
      .next { s with pending := rest, wireLeft := [], wireDone := s.wireDone ++ l } := by
  induction l generalizing s with
  | nil =>
    rw [List.append_nil]
    rfl
  | cons e l ih =>
    rw [List.length_cons, run_step _ (step_wireTick rfl rfl)]
    exact (ih { s with wireDone := s.wireDone ++ [e] }).trans (by simp)

/-- Settles O53: the hand-over leaves the whole emission to do, and each tick does one event of it. -/
theorem emissionRunsToCompletion : Obligations.EmissionRunsToCompletion := by
  refine fun s rest idle frame => ⟨emission_length _ _, fun h => ?_⟩
  rw [run_step _ (step_handOver h idle frame), idle]
  exact run_wireTicks rest _ s

end Sys2Proof.Machine
end

section
/-! SUPPORT. The errors (R113 to R127): which error a command raises and in what order (R115 to R120), the record it
leaves (R121, R122), and the events the model refuses (R127, R133). -/

namespace Sys2Proof.Machine

/-! ## The records, read by ERR and ERRCODE -/

theorem errorRecord_err_errcode (w : Word) (c : ErrorCode) :
    statusErr (errorRecord w c) = true ∧ statusErrcode (errorRecord w c) = c.code.setWidth 4 :=
  ⟨(errorRecord_fields w c).1, errorRecord_errcode w c⟩

theorem successRecord_err_errcode (w : Word) :
    statusErr (successRecord w) = false ∧ statusErrcode (successRecord w) = 0 := by
  obtain ⟨err, -, -, code⟩ := successRecord_fields w
  exact ⟨err, code⟩

/-- The codes of the errors a command can raise are 1 to 4 (R114). -/
theorem ErrorCode.code_bounds (c : ErrorCode) : 1 ≤ c.code.toNat ∧ c.code.toNat ≤ 4 := by cases c <;> decide

/-- ERRCODE has room for every code (R26, R114). -/
theorem ErrorCode.code_setWidth (c : ErrorCode) : c.code.setWidth 4 = BitVec.ofNat 4 c.code.toNat := by
  cases c <;> rfl

/-! ## The error of one command -/

/-- Settles O9: R115 and R116 are the two range errors, and operands that both fit are accepted. -/
theorem encodeRangeErrors : Obligations.EncodeRangeErrors := by
  intro s reject
  obtain ⟨t, next, -⟩ := exec_ends .encode s
  refine ⟨t, next, fun dest => ?rangeDest, fun dest data => ?rangeData, fun dest data => ?fits⟩
  case rangeDest =>
    cases next.symm.trans (exec_encode_dest reject dest)
    exact errorRecord_err_errcode _ .rangeDest
  case rangeData =>
    cases next.symm.trans (exec_encode_data reject dest data)
    exact errorRecord_err_errcode _ .rangeData
  case fits =>
    cases next.symm.trans (exec_encode_of_runs (.inr ⟨dest, data⟩))
    exact successRecord_err_errcode _

theorem ckIn_toNat_eq_zero_iff (s : State) : s.ckIn.toNat = 0 ↔ s.ckIn = 0 :=
  BitVec.toNat_inj (y := 0)

/-- ENCODE ends in a range error or completed, and no record of these has DEGENERATE's code (R117). -/
theorem CommandEnd.encode_errcode_ne_degenerate {s t : State} (ends : CommandEnd s .encode t) :
    statusErrcode t.status ≠ 3 := by
  cases ends with
  | rangeDest => rw [State.raiseError, State.withStatus_status, errorRecord_rangeDest]; decide
  | rangeData => rw [State.raiseError, State.withStatus_status, errorRecord_rangeData]; decide
  | encode => rw [State.withEncoding_status, successRecord_encode]; decide

/-- Settles O11: CKSUM raises DEGENERATE on 0 and completes otherwise, and no end of ENCODE has its code. -/
theorem degenerateOnlyFromCksumOfZero : Obligations.DegenerateOnlyFromCksumOfZero := by
  refine ⟨fun s zero => ?degenerate, fun s nonzero => ?completes, fun s => ?encode⟩
  case degenerate =>
    exact ⟨_, exec_cksum_zero ((ckIn_toNat_eq_zero_iff s).mpr zero), errorRecord_err_errcode _ .degenerate⟩
  case completes =>
    exact ⟨_, exec_cksum_pos (mt (ckIn_toNat_eq_zero_iff s).mp nonzero), successRecord_err_errcode _⟩
  case encode =>
    obtain ⟨t, next, ends⟩ := exec_ends .encode s
    exact ⟨t, next, ends.encode_errcode_ne_degenerate⟩

/-! ## The order of the errors -/

/-- Settles O32: the word alone decides ILLEGAL_COMMAND, and a legal word's command decides the rest by its operands. -/
theorem errorPriority : Obligations.ErrorPriority := by
  refine ⟨fun s w rest h => ?performed, fun s w size rest other h => ?refused⟩
  case refused => exact unacceptedAccessHasNoEffect s _ rest h fun ⟨four, _⟩ => other four
  case performed =>
    obtain ⟨u, next, -⟩ := performCommand_ends w (s.withPending rest)
    have ended {i : Instr} {v : State} (word : w = encode i) (run : exec i (s.withPending rest) = .next v) : u = v := by
      subst word
      cases next.symm.trans ((performCommand_encode i _).trans run)
      rfl
    refine ⟨u.withResponse writeOkay, step_write (r := .cmd) h next, fun ⟨h0, h1, h2⟩ => ?illegal,
      fun word reject dest => ?rangeDest, fun word reject dest data => ?rangeData, fun word zero => ?degenerate,
      fun word runs => ?encode, fun word nonzero => ?cksum, fun word => ?nop⟩
    case illegal =>
      cases next.symm.trans (performCommand_illegal _ h0 h1 h2)
      exact errorRecord_err_errcode w .illegalCommand
    case rangeDest =>
      obtain rfl := ended (i := .encode) word (exec_encode_dest reject dest)
      exact errorRecord_err_errcode _ .rangeDest
    case rangeData =>
      obtain rfl := ended (i := .encode) word (exec_encode_data reject dest data)
      exact errorRecord_err_errcode _ .rangeData
    case degenerate =>
      obtain rfl := ended (i := .cksum) word (exec_cksum_zero ((ckIn_toNat_eq_zero_iff s).mpr zero))
      exact errorRecord_err_errcode _ .degenerate
    case encode =>
      obtain rfl := ended (i := .encode) word (exec_encode_of_runs runs)
      exact successRecord_err_errcode _
    case cksum =>
      obtain rfl := ended (i := .cksum) word (exec_cksum_pos (mt (ckIn_toNat_eq_zero_iff s).mp nonzero))
      exact successRecord_err_errcode _
    case nop =>
      obtain rfl := ended (i := .nop) word (exec_nop _)
      rfl

/-! ## The record a command leaves -/

/-- The inversion lemma of a CMD write's step: the word has one of its effects, and the answer is OKAY (R45, R99). -/
theorem step_cmdWrite_cases {s t : State} {w : Word} {rest : List Event} (h : s.pending = cmdWrite w :: rest)
    (next : step s = .next t) : ∃ u, CommandEffect (s.withPending rest) w u ∧ t = u.withResponse writeOkay := by
  obtain ⟨u, performed, ends⟩ := performCommand_ends w (s.withPending rest)
  cases next.symm.trans (step_write (r := .cmd) h performed)
  exact ⟨u, ends.effect, rfl⟩

/-- Settles O33: an effect with ERR is a raised error, whose record is R121's number. -/
theorem errorWritesStatusOnly : Obligations.ErrorWritesStatusOnly := by
  intro s t w rest h command next err
  obtain ⟨u, effect, rfl⟩ := step_cmdWrite_cases h next
  obtain ⟨c, rfl⟩ := effect.eq_of_err command err
  obtain ⟨lo, hi⟩ := c.code_bounds
  refine ⟨c.code.toNat, lo, hi, (errorRecord_errcode w c).trans c.code_setWidth, ?_⟩
  rw [State.raiseError, errorRecord_ofNat]
  rfl

/-- Settles O34: an effect without ERR is a completed CKSUM or ENCODE, whose success record is R122's number. -/
theorem noErrorLeavesSuccessRecord : Obligations.SuccessRecord := by
  intro s t w rest h command next ok
  obtain ⟨u, effect, rfl⟩ := step_cmdWrite_cases h next
  rcases effect.eq_of_no_err command ok with ⟨word, rfl⟩ | ⟨word, rfl⟩
  · exact .inl ⟨word, successRecord_cksum⟩
  · exact .inr ⟨word, successRecord_encode⟩

/-! ## The refused events -/

/-- Settles O42: a step performs the oldest event, and each of these two is refused by its name (R127, R133). -/
theorem modelRefusesSecondMasterAndOverlap : Obligations.ModelRefusesSecondMasterAndOverlap := fun _ _ _ _ =>
  ⟨step_event, step_event⟩

end Sys2Proof.Machine
end

section
/-! SUPPORT. Reset and hazards (R129 to R135): what reset leaves in the registers (R129), that the build stays (R130), what
a completed command leaves apart from the reset values (R131), and what a write of an operand register keeps (R135). -/

namespace Sys2Proof.Machine

/-! ## Results apart from 0 -/

/-- A number of 1 or more has a section that is not 0, so its sum is not 0 (R65, R75). -/
theorem engine_sum_pos {h : Nat} (pos : 1 ≤ h) : 1 ≤ (engine h).sum := by
  refine Nat.one_le_iff_ne_zero.mpr fun zero => ?_
  simp only [engine_sum, engine_s1, engine_s2, engine_s3, engine_s4, Nat.add_eq_zero_iff] at zero
  obtain ⟨⟨⟨s1, s2⟩, s3⟩, s4⟩ := zero
  have recompose := sections_recompose h (engine h).k
  rw [s1, s2, s3, s4] at recompose
  omega

theorem reportsEngine.sum_ne_zero {s : State} {h : Nat} (r : reportsEngine s h) (lt : h < 2 ^ 32) (pos : 1 ≤ h) :
    s.sum ≠ 0 := by
  have sum := engine_sum_pos pos
  rw [← r.sum_toNat lt] at sum
  intro zero
  rw [zero] at sum
  cases sum

/-- The low word of a frame is never 0 (R63, R89). The checksum field has at most 9 of its 32 bits, so the word could be 0
only for a header whose low 23 bits are 0; there are two such headers, and neither has the checksum field 0. -/
theorem packFrame_low_ne_zero {h : Nat} (lo : 2 ^ 24 ≤ h) (hi : h < 2 ^ 25) (p : CwPolicy) :
    packFrame h (checksumField p (engine h)) % 2 ^ 32 ≠ 0 := by
  intro zero
  have ffw := checksumField_ffw_le lo hi p
  have shift : packFrame h (checksumField p (engine h)) / 2 ^ (checksumField p (engine h)).ffw = h :=
    (Nat.shiftRight_eq_div_pow _ _).symm.trans (packFrame_shiftRight p h 0)
  have low : 2 ^ 23 ∣ h := by
    rw [← shift]
    refine Nat.dvd_div_of_mul_dvd (dvd_trans ?_ (Nat.dvd_of_mod_eq_zero zero))
    rw [← pow_add]
    exact pow_dvd_pow 2 (by omega)
  obtain rfl | rfl : h = 0x1000000 ∨ h = 0x1800000 := by omega
  all_goals cases p <;> revert zero <;> decide

/-- FRAME_LO after ENCODE is not 0 (R89; log entry 15). -/
theorem encode_frameLo_ne_zero (s : State) : (s.withEncoding (headerOf s)).frameLo ≠ 0 := by
  obtain ⟨lo, hi⟩ := headerOf_bounds s
  intro zero
  have low := congrArg BitVec.toNat zero
  rw [State.withEncoding_frameLo, BitVec.toNat_ofNat, Nat.mod_mod] at low
  exact packFrame_low_ne_zero lo hi _ low

/-- Settles O15: both commands report the engine on a nonzero number, and ENCODE leaves a frame of a 25-bit header. CKSUM
of 1, and ENCODE of DEST 0 and DATA 115, leave the zeros. -/
theorem resultsDifferFromReset : Obligations.ResultsDifferFromReset := by
  refine ⟨fun s nonzero => ?cksum, fun s runs => ?encode, ?zeroCksum, ?zeroFrameHi⟩
  case cksum =>
    have operand := mt (ckIn_toNat_eq_zero_iff s).mp nonzero
    have pos := Nat.one_le_iff_ne_zero.mpr operand
    have report := reportsEngine_cksum s
    exact ⟨_, exec_cksum_pos operand, report.ckInfo_ne_zero s.ckIn.isLt pos, report.sum_ne_zero s.ckIn.isLt pos⟩
  case encode =>
    have report := reportsEngine_encode s
    have width := (holdsFrame_encode s).frameWidth_bounds (Nat.mod_lt _ (by norm_num)) (Nat.mod_lt _ (by norm_num))
    have header : 2 ^ 24 ≤ (s.withEncoding (headerOf s)).header.toNat :=
      (headerOf_bounds s).1.trans_eq (withEncoding_header_toNat s).symm
    have pos := Nat.one_le_two_pow.trans header
    exact ⟨_, exec_encode_of_runs runs, report.ckInfo_ne_zero (BitVec.isLt _) pos,
      report.sum_ne_zero (BitVec.isLt _) pos, header, width.1, encode_frameLo_ne_zero s⟩
  case zeroCksum =>
    exact ⟨State.reset.withCkIn 1, _, exec_cksum_of_engine (n := 1) rfl one_ne_zero engine_one, rfl, rfl⟩
  case zeroFrameHi =>
    obtain ⟨runs, header⟩ := encodeRuns_of_operands (s := State.reset.withData 115) rfl rfl rfl (by decide)
    exact ⟨_, _, exec_encode_of_engine (f := ⟨7, 0⟩) runs header engine_header_0_115 rfl, rfl, rfl, rfl⟩

/-! ## A write of an operand register -/

/-- The inversion lemma of an accepted write's step: one of the ways the register takes it, then OKAY (R45). -/
theorem step_write_cases {s t : State} {q : Reg} {v : Word} {rest : List Event}
    (h : s.pending = .transaction ⟨.write v, q.offset, .four⟩ :: rest) (next : step s = .next t) :
    ∃ u, WriteEnd (s.withPending rest) v q u ∧ t = u.withResponse writeOkay := by
  obtain ⟨u, written, ends⟩ := writeReg_ends v (s.withPending rest) q
  cases next.symm.trans (step_write h written)
  exact ⟨u, ends, rfl⟩

theorem readReg_withResponse (s : State) (a : Response) (r : Reg) : readReg (s.withResponse a) r = readReg s r := by
  cases r <;> rfl

/-- A write of any register but CMD leaves every other register as it was (R45, R55). -/
theorem WriteEnd.readReg_of_ne {s t : State} {v : Word} {q r : Reg} (ends : WriteEnd s v q t) (store : q ≠ .cmd)
    (other : r ≠ q) : readReg t r = readReg s r := by
  cases ends with
  | dest | data | ckIn => cases r <;> simp_all [readReg]
  | cmd => exact absurd rfl store
  | ignored => rfl

/-- Settles O40: the three offsets are operand registers', and a write of one stores its value there alone. -/
theorem operandWriteKeepsResults : Obligations.OperandWriteKeepsResults := by
  intro s t off v rest operand h next r other
  change off ∈ [Reg.dest, .data, .ckIn].map Reg.offset at operand
  obtain ⟨q, mem, rfl⟩ := List.mem_map.mp operand
  obtain ⟨u, ends, rfl⟩ := step_write_cases h next
  have store : q ≠ .cmd := ne_of_mem_of_not_mem mem (by decide)
  rw [readReg_withResponse, ends.readReg_of_ne store (ne_of_apply_ne Reg.offset other), readReg_withPending]

/-! ## The build and reset -/

/-- Settles O44: CONFIG is a view of the build, which no step changes. -/
theorem noStepChangesConfig : Obligations.NoStepChangesConfig := fun _ _ next =>
  have build := step_build next
  ⟨build, congrArg configWord build, congrArg configWord build⟩

/-- Reset leaves 0 in every register but CONFIG (R25 to R36, R129). -/
theorem readReg_blockReset (s : State) {r : Reg} (other : r ≠ .config) : readReg s.blockReset r = 0 := by
  cases r
  case config => exact absurd rfl other
  all_goals rfl

/-- The state after reset is one that a reset leaves as it is (R129). -/
theorem blockReset_reset : State.reset.blockReset = State.reset := rfl

/-- Settles O45: the step of a reset is blockReset, of which State.reset is a value. -/
theorem resetSetsEveryRegister : Obligations.ResetSetsEveryRegister := by
  refine ⟨fun s rest h => ?step, by decide, fun r other => ?reset⟩
  case step => exact ⟨_, step_event h, rfl, rfl, rfl, fun r => readReg_blockReset _⟩
  case reset => rw [← blockReset_reset, readReg_blockReset _ other]

end Sys2Proof.Machine
end

section
/-! SUPPORT. The decoder on byte lanes and on table words, as a relation to the encoder (R46, R59, R67). -/

namespace Sys2Proof.Machine

/-! ## Byte lanes and table words -/

/-- Four bytes make a word exactly when they are its lanes (R46). -/
theorem wordOfLanes_eq_iff {b0 b1 b2 b3 : Byte} {w : Word} :
    wordOfLanes b0 b1 b2 b3 = w ↔ b0 = laneOf w 0 ∧ b1 = laneOf w 1 ∧ b2 = laneOf w 2 ∧ b3 = laneOf w 3 := by
  constructor
  · rintro rfl
    obtain ⟨l0, l1, l2, l3⟩ := laneOf_wordOfLanes b0 b1 b2 b3
    exact ⟨l0.symm, l1.symm, l2.symm, l3.symm⟩
  · rintro ⟨rfl, rfl, rfl, rfl⟩
    exact wordOfLanes_laneOf w

/-- On four bytes or more the decoder reads the first four as a word and leaves the others. -/
theorem decodeBytes_cons (b0 b1 b2 b3 : Byte) (tail : List Byte) :
    decodeBytes (b0 :: b1 :: b2 :: b3 :: tail) = (decode (wordOfLanes b0 b1 b2 b3)).map (·, tail) := by
  rw [decodeBytes]
  cases decode (wordOfLanes b0 b1 b2 b3) <;> rfl

/-- Byte lanes decode to a command and a rest exactly when they are the command's lanes, then the rest. -/
theorem decodeBytes_eq_ok_iff {bs rest : List Byte} {i : Instr} :
    decodeBytes bs = .ok (i, rest) ↔ bs = encodeBytes i ++ rest := by
  match bs with
  | b0 :: b1 :: b2 :: b3 :: tail =>
    have lanes : decodeBytes (b0 :: b1 :: b2 :: b3 :: tail) = .ok (i, rest) ↔
        wordOfLanes b0 b1 b2 b3 = encode i ∧ tail = rest := by
      rw [decodeBytes_cons, ← decode_eq_ok_iff]
      cases decode (wordOfLanes b0 b1 b2 b3) <;> simp [Except.map]
    rw [lanes, wordOfLanes_eq_iff]
    simp only [encodeBytes, List.cons_append, List.nil_append, List.cons.injEq, and_assoc]
  | [] | [_] | [_, _] | [_, _, _] => simp [decodeBytes, encodeBytes]

theorem tableWord_32 (n : Nat) : tableWord 32 n = BitVec.ofNat 32 n :=
  BitVec.eq_of_toNat_eq (by simp [tableWord])

/-- A 32-bit table word is read through its four lanes, which make that word again. -/
theorem decodeTableWord_32 (n : Nat) : decodeTableWord 32 n = (decode (BitVec.ofNat 32 n)).toOption := by
  rw [decodeTableWord, if_pos (Nat.mod_lt n (by norm_num))]
  dsimp only
  rw [decodeBytes_cons, wordOfLanes_laneOf, tableWord_32]
  cases decode (BitVec.ofNat 32 n) <;> rfl

/-- A 32-bit table word decodes to a command exactly when it is that command's word. -/
theorem decodeTableWord_eq_some_iff {n : Nat} {i : Instr} :
    decodeTableWord 32 n = some i ↔ BitVec.ofNat 32 n = encode i := by
  rw [decodeTableWord_32, ← decode_eq_ok_iff]
  cases decode (BitVec.ofNat 32 n) <;> simp [Except.toOption]

/-- Settles O3: words, byte lanes and table words each decode to a command exactly when they are its encoding. -/
theorem decodeEncodeAgree : Obligations.DecodeEncodeAgree :=
  ⟨fun i _ => decode_encode i, fun _ _ => decode_eq_ok_iff.mp, fun _ _ _ => decodeBytes_eq_ok_iff.mpr rfl,
    fun _ _ _ => decodeBytes_eq_ok_iff.mp, fun _ _ => decodeTableWord_eq_some_iff⟩

/-- Settles O1: the three words of R59 are the commands' encodings, and the other words of V-CM-01 to V-CM-10 are
decoded. -/
theorem decodeSpecWords : Obligations.DecodeSpecWords :=
  ⟨decode_encode .nop, decode_encode .cksum, decode_encode .encode, decodeTableWord_eq_some_iff.mpr rfl,
    decodeTableWord_eq_some_iff.mpr rfl, decodeTableWord_eq_some_iff.mpr rfl, rfl, rfl, rfl, rfl, rfl, rfl, rfl⟩

end Sys2Proof.Machine
end

section
/-! SUPPORT. The bounds of the engine (R81), the sum recovered from the checksum (R82), and the ranges of a header and
its frame (R96). -/

namespace Sys2Proof.Machine

/-! ## The engine's bounds -/

/-- Section 4 has the L - 3k bits that the other sections leave (R81 (a)). -/
theorem engine_s4_lt_rest (h : Nat) : (engine h).s4 < 2 ^ ((engine h).l - 3 * (engine h).k) :=
  bitlen_le_iff.mp (bitlen_section4_le h (engine h).k)

theorem four_mask_lt (k : Nat) : 4 * (2 ^ k - 1) < 2 ^ (k + 2) := by
  have pos : 0 < 2 ^ k := by positivity
  rw [pow_add]
  omega

/-- Settles O21: the sections' widths bound the sum, which bounds CW and with it the checksum. -/
theorem engineBounds : Obligations.EngineBounds := by
  intro h _
  have len := engine_l_le_four_k h
  have rest : 2 ^ ((engine h).l - 3 * (engine h).k) ≤ 2 ^ (engine h).k :=
    Nat.pow_le_pow_right (by norm_num) (by omega)
  exact ⟨⟨len, engine_s4_lt_rest h, rest, engine_s1_lt h, engine_s2_lt h, engine_s3_lt h,
      engine_s4_lt h⟩,
    ⟨engine_sum_le h, four_mask_lt _, engine_k_le_cw h, engine_cw_le h⟩, engine_ck_lt h,
    fun lt => ⟨engine_k_le lt, engine_sum_le_1020 lt, engine_cw_le_ten lt, engine_ck_lt_1024 lt⟩⟩

/-! ## The sum and the checksum -/

/-- Complementing the low k bits twice changes nothing. -/
theorem xor_onesMask_involutive (k : Nat) : Function.Involutive fun n : Nat => n ^^^ onesMask k :=
  fun n => Nat.xor_xor_cancel_right n (onesMask k)

/-- For one k the checksum is as good as the sum (R82). -/
theorem engine_ck_eq_iff {h h' : Nat} (k : (engine h).k = (engine h').k) :
    (engine h).ck = (engine h').ck ↔ (engine h).sum = (engine h').sum := by
  rw [engine_ck, engine_ck, k]
  exact (xor_onesMask_involutive _).injective.eq_iff

/-- Settles O22: the checksum is the sum under an involution that k fixes, and the sum does not see the order of its
sections. -/
theorem sumIsRecoverable : Obligations.SumIsRecoverable := by
  refine ⟨fun h => ?sum, fun k => (xor_onesMask_involutive k).bijective, fun _ _ => engine_ck_eq_iff, ?swap⟩
  case sum => exact (xor_onesMask_involutive _ _).symm
  case swap =>
    intro h h' k s1 s2 s3 s4
    rw [engine_ck_eq_iff k, engine_sum, engine_sum, s1, s2, s3, s4, Nat.add_comm (engine h').s1]

/-! ## The ranges of a header and its frame -/

section
variable {h : Nat} (lo : 2 ^ 24 ≤ h) (hi : h < 2 ^ 25)
include lo hi

theorem engine_s4_of_header : (engine h).s4 = h >>> 21 := by
  rw [engine_s4, engine_k_of_header lo hi]
  rfl

/-- A frame of a header has at most 25 + 9 bits (R96 (f)). -/
theorem packFrame_lt_of_header (p : CwPolicy) : packFrame h (checksumField p (engine h)) < 2 ^ 34 := by
  have ffw := checksumField_ffw_le lo hi p
  have bits := bitlen_frame lo hi (checksumField_cf_lt p h)
  rw [packFrame_eq, ← bitlen_le_iff, bits]
  omega

end

/-- The leading bit and the top three bits of SRC_ADDR are section 4 of a header (R96 (b)). -/
theorem packHeader_shiftRight_21 (src : BitVec 8) {dst dat : Nat} (hd : dst < 256) (hx : dat < 256) :
    packHeader src ⟨dst, dat⟩ >>> 21 = 8 + (src.toNat >>> 5) := by
  rw [packHeader_eq src hd hx, Nat.shiftRight_eq_div_pow, Nat.shiftRight_eq_div_pow]
  omega

/-- With SRC_ADDR 1 section 3 is 4 to 7 and section 4 is 8 (R96 (c)). -/
theorem engine_sum_bounds_of_src_one {dst dat : Nat} (hd : dst < 256) (hx : dat < 256) :
    12 ≤ (engine (packHeader 1 ⟨dst, dat⟩)).sum ∧ (engine (packHeader 1 ⟨dst, dat⟩)).sum ≤ 269 := by
  obtain ⟨lo, hi⟩ := packHeader_bounds 1 (o := ⟨dst, dat⟩) hd hx
  have h1 := engine_s1_lt (packHeader 1 ⟨dst, dat⟩)
  have h2 := engine_s2_lt (packHeader 1 ⟨dst, dat⟩)
  have h3 : (engine (packHeader 1 ⟨dst, dat⟩)).s3 = 4 + dst / 64 := by
    rw [engine_s3, section3_eq, engine_k_of_header lo hi, packHeader_eq 1 hd hx]
    change (2 ^ 24 + 1 * 2 ^ 16 + dst * 2 ^ 8 + dat) / 2 ^ 14 % 2 ^ 7 = _
    omega
  have h4 : (engine (packHeader 1 ⟨dst, dat⟩)).s4 = 8 :=
    (engine_s4_of_header lo hi).trans (packHeader_shiftRight_21 1 hd hx)
  rw [engine_k_of_header lo hi] at h1 h2
  rw [engine_sum, h3, h4]
  omega

/-- Settles O26: a header has 25 bits, so k is 7 and section 4 its top 4 bits; the sum's bound gives CW's, and CW's the
frame's. -/
theorem encodeRanges : Obligations.EncodeRanges := by
  intro b dst dat hd hx h r f
  obtain ⟨lo, hi⟩ := packHeader_bounds b.srcAddr (o := ⟨dst, dat⟩) hd hx
  have k : r.k = 7 := engine_k_of_header lo hi
  have s4 : r.s4 = h >>> 21 := engine_s4_of_header lo hi
  have top : h >>> 21 = 8 + (b.srcAddr.toNat >>> 5) := packHeader_shiftRight_21 b.srcAddr hd hx
  have s4_lo : 8 ≤ r.s4 := by omega
  have s4_hi : r.s4 ≤ 15 := by
    rw [s4, Nat.shiftRight_eq_div_pow]
    omega
  have cw_lo : 7 ≤ r.cw := engine_cw_ge_of_header lo hi
  have cw_hi : r.cw ≤ 9 := engine_cw_le_of_header lo hi
  have frame : packFrame h f < 2 ^ 34 := packFrame_lt_of_header lo hi b.cwPolicy
  refine ⟨⟨lo, hi, bitlen_eq_succ lo hi, k, congrArg onesMask k⟩, ⟨s4, top, s4_lo, s4_hi⟩,
    ⟨?sum, engine_sum_le_of_header lo hi, ?src⟩, by omega, ?width, frame, ?high⟩
  case sum => exact s4_lo.trans (Nat.le_add_left _ _)
  case src =>
    intro src
    have bounds := engine_sum_bounds_of_src_one hd hx
    rwa [← src] at bounds
  case width =>
    have natural : bitlen r.ck ≤ 9 := (bitlen_le_iff.mpr (engine_ck_lt h)).trans cw_hi
    have bits : frameBits f = 25 + (checksumField b.cwPolicy r).ffw := frameBits_eq f
    rw [bits]
    cases b.cwPolicy with
    | actual => exact ⟨Nat.add_le_add_left cw_lo 25, Nat.add_le_add_left cw_hi 25⟩
    | nominal => rfl
    | natural => exact ⟨Nat.le_add_right 25 _, Nat.add_le_add_left natural 25⟩
  case high =>
    rw [Nat.shiftRight_eq_div_pow]
    omega

end Sys2Proof.Machine
end

section
/-! SUPPORT. The frames of two builds that differ in SRC_ADDR (R98). -/

namespace Sys2Proof.Machine

theorem bitlen_shiftRight (v n : Nat) : bitlen (v >>> n) = bitlen v - n := by
  refine eq_of_forall_ge_iff fun m => ?_
  rw [bitlen_le_iff, Nat.shiftRight_eq_div_pow, Nat.div_lt_iff_lt_mul (by positivity), ← pow_add, ← bitlen_le_iff,
    Nat.sub_le_iff_le_add]

/-! ## The header in the frame that ENCODE leaves -/

section
variable (s : State)

theorem encode_header_bitlen : bitlen (s.withEncoding (headerOf s)).header.toNat = 25 := by
  obtain ⟨lo, hi⟩ := headerOf_bounds s
  rw [withEncoding_header_toNat]
  exact bitlen_eq_succ lo hi

theorem encode_frame_shiftRight_width :
    frameValue (s.withEncoding (headerOf s)) >>> ((s.withEncoding (headerOf s)).frameWidth.toNat - 25) =
      (s.withEncoding (headerOf s)).header.toNat := by
  have frame := encode_checksOut s
  rw [frame.ffw_eq]
  exact frame.header

/-- HEADER stands in the frame at one place only, for its bit length is 25 (R95): where another frame has its
own only if that frame is as wide (R98 (iii)). -/
theorem encode_frame_shiftRight_eq_header_iff (s' : State) :
    frameValue (s.withEncoding (headerOf s)) >>> ((s'.withEncoding (headerOf s')).frameWidth.toNat - 25) =
        (s.withEncoding (headerOf s)).header.toNat ↔
      (s.withEncoding (headerOf s)).frameWidth = (s'.withEncoding (headerOf s')).frameWidth := by
  constructor
  · intro there
    have len := congrArg bitlen there
    have width' := (encode_checksOut s').width
    rw [bitlen_shiftRight, (encode_checksOut s).bitlen, encode_header_bitlen] at len
    exact BitVec.eq_of_toNat_eq (by omega)
  · intro same
    rw [← same]
    exact encode_frame_shiftRight_width s

/-- NOMINAL's field is 6 bits wide (R91). -/
theorem encode_frameWidth_of_nominal (nominal : s.build.cwPolicy = .nominal) :
    (s.withEncoding (headerOf s)).frameWidth = 31 := by
  rw [State.withEncoding_frameWidth, nominal, checksumField_nominal]
  rfl

/-- DEST and DATA, in range, are the low 16 bits of the header, which stands above the checksum field (R61, R98). -/
theorem encode_frame_operands (hd : s.dest.toNat < 256) (hx : s.data.toNat < 256) :
    (frameValue (s.withEncoding (headerOf s)) >>> ((s.withEncoding (headerOf s)).frameWidth.toNat - 25)) % 2 ^ 16 =
      s.dest.toNat * 256 + s.data.toNat := by
  rw [encode_frame_shiftRight_width, withEncoding_header_toNat, headerOf_eq]
  omega

end

/-- Headers of builds with different SRC_ADDR differ (R61). -/
theorem headerOf_ne_of_srcAddr_ne {s s' : State} (src : s.build.srcAddr ≠ s'.build.srcAddr) :
    headerOf s ≠ headerOf s' := by
  intro same
  rw [headerOf_eq, headerOf_eq] at same
  exact src (BitVec.eq_of_toNat_eq (by omega))

/-- The frame fixes its width, being that long, and with it its header (R95, R97). -/
theorem encode_frameValue_ne {s s' : State} (header : headerOf s ≠ headerOf s') :
    frameValue (s.withEncoding (headerOf s)) ≠ frameValue (s'.withEncoding (headerOf s')) := by
  intro same
  have top := encode_frame_shiftRight_width s
  rw [← (encode_checksOut s).bitlen, same, (encode_checksOut s').bitlen, encode_frame_shiftRight_width,
    withEncoding_header_toNat, withEncoding_header_toNat] at top
  exact header top.symm

/-- Settles O30: each frame is its own header above a field that FRAME_WIDTH measures, and the headers differ in
SRC_ADDR alone. -/
theorem sourceAddressMutation : Obligations.SourceAddressMutation := by
  refine ⟨fun s s' src policy _ dest data hd hx => ?frames, by decide, by decide, by decide, by decide, by decide⟩
  have runs' : s'.dest.toNat < 256 ∧ s'.data.toNat < 256 := ⟨dest ▸ hd, data ▸ hx⟩
  have operands := encode_frame_operands s hd hx
  have operands' := encode_frame_operands s' runs'.1 runs'.2
  rw [← dest, ← data] at operands'
  refine ⟨_, _, exec_encode_of_runs (.inr ⟨hd, hx⟩), exec_encode_of_runs (.inr runs'),
    encode_frameValue_ne (headerOf_ne_of_srcAddr_ne src), fun nominal => ?nominal, operands, operands',
    (encode_frame_shiftRight_eq_header_iff s' s).trans eq_comm, encode_frame_shiftRight_eq_header_iff s s'⟩
  case nominal =>
    have width := encode_frameWidth_of_nominal s nominal
    have width' := encode_frameWidth_of_nominal s' (policy ▸ nominal)
    rw [width] at operands
    rw [width'] at operands'
    exact ⟨width.trans width'.symm, operands, operands'⟩

end Sys2Proof.Machine
end

section
/-! SUPPORT. The step without an event, and the base case of the invariant (R128, R129). -/

namespace Sys2Proof.Machine

/-- Settles O5: a step performs the oldest pending event, and there is none. -/
theorem idleStepChangesNothing : Obligations.IdleStepChangesNothing := fun _ => step_idle

/-- Settles O54: the reset state is one a reset leaves, with an idle wire. -/
theorem invHoldsAtReset : Obligations.InvHoldsAtReset :=
  have reset (b : Build) (base : Nat) : Inv (State.resetOf b base) :=
    inv_blockReset (s := State.resetOf b base) (.inl rfl)
  ⟨reset, reset Build.default 0⟩

end Sys2Proof.Machine
end
